-- ==== Sys2Proof/Word.lean ====
section
/-!
DEFINITION. The machine word (00_scope.md R8, R9): 32 bits, addresses and data alike; the smallest addressable unit
(20_memory.md R71).
-/

namespace Sys2Proof

/-- A 32-bit word, `v[31:0]` of R8. Addition and subtraction wrap modulo 2^32 (R9, R142). -/
abbrev Word := BitVec 32

end Sys2Proof
end

