-- ==== Sys2Proof/Syntax.lean ====
section
/-!
DEFINITION. The instructions: one constructor of `Instr` per row of spec/opcode_table.json (30_encoding.md R110, R112),
and the two packed halves of a VLIW word (48_vliw.md R221 to R227).
-/

namespace Sys2Proof

/-- A 4-bit register field (10_state.md R22): R0..R12 and SP (13), the status register CC (14), the program counter
PC (15). Which set it names is the machine's business (R21). -/
inductive Reg
  | gpr (n : Fin 14)
  | cc
  | pc
  deriving DecidableEq, Repr

/-- The condition field (30_encoding.md R116, Tbl. 2.3), in the order of its codes. -/
inductive Cond
  | always
  | lt
  | z
  | nz
  | gt
  | ge
  | c
  | v
  deriving DecidableEq, Repr

/-- Operand B, 19 bits (30_encoding.md R104, Tbl. 2.7): an 18-bit immediate, or a register plus a 14-bit offset. -/
inductive OpB
  | imm (i : BitVec 18)
  | reg (br : Reg) (off : BitVec 14)
  deriving DecidableEq, Repr

/-- The 2-bit condition of a VLIW word (48_vliw.md R226, Tbl. 2.5), in the order of its codes. -/
inductive Cond2
  | always
  | lt
  | z
  | nz
  deriving DecidableEq, Repr

/-- Operand B of a VLIW half, 5 bits (48_vliw.md R223): a 4-bit immediate, or a register. -/
inductive HalfB
  | imm (i : BitVec 4)
  | reg (br : Reg)
  deriving DecidableEq, Repr

/-- The standard-format operations a VLIW half can hold: opcodes 5'h00 to 5'h15 but for MOV (48_vliw.md R222). -/
inductive StdOp
  | sub | and | add | or | xor | lsr | lsl | asr
  | mpy | ldilo | mpyuhi | mpyshi | brev | popc | rol
  | cmp | tst | lod | sto | divu | divs
  deriving DecidableEq, Repr

/-- One half of a VLIW word, `{DR, Op, OpB}` (48_vliw.md R221), decoded in the order of R222. -/
inductive Half
  /-- Opcodes 5'h00 to 5'h15, MOV apart. -/
  | std (op : StdOp) (dr : Reg) (b : HalfB)
  /-- MOV, opcode 5'h0f (R223). -/
  | mov (dr : Reg) (b : HalfB)
  /-- LDI, `Op[4:1]` = 1011; `low` is `Op[0]` (R225). -/
  | ldi (dr : Reg) (low : Bool) (imm : BitVec 5)
  /-- `DR` = 14 or 15 (`bit` is its low bit) with `Op[4:3]` = 11: NOOP, BREAK, LOCK for `sel` 0, 1, 2 (R227). -/
  | group (bit : Bool) (sel : BitVec 3) (rsvd : BitVec 5)
  /-- `Op[4:3]` = 11 with another `DR`: floating point and reserved opcodes (R222). -/
  | unbuilt (sel : BitVec 3) (dr : Reg) (opB : BitVec 5)
  deriving DecidableEq, Repr

/-- The instructions: every row of spec/opcode_table.json. In the standard format `dr` is the field DR, `cnd` the
condition and `b` operand B (30_encoding.md R103). -/
inductive Instr
  /-- VLIW: two instructions in one word (R221); `c2` says whether the condition governs the second half too (R226). -/
  | vliw (c2 : Bool) (cnd : Cond2) (first second : Half)
  | ldi (dr : Reg) (imm : BitVec 23)
  | noop (bit27 : Bool) (payload : BitVec 22)
  | brk (bit27 : Bool) (payload : BitVec 22)
  | lock (bit27 : Bool) (payload : BitVec 22)
  | illegalNoopgrp3 (bit27 : Bool) (payload : BitVec 22)
  | illegalNoopgrp4 (bit27 : Bool) (payload : BitVec 22)
  | illegalNoopgrp5 (bit27 : Bool) (payload : BitVec 22)
  | illegalNoopgrp6 (bit27 : Bool) (payload : BitVec 22)
  | illegalNoopgrp7 (bit27 : Bool) (payload : BitVec 22)
  /-- MOV (R105): `a` is the A bit (destination in the user set), `b` the B bit (source in the user set). -/
  | mov (dr : Reg) (cnd : Cond) (a : Bool) (br : Reg) (b : Bool) (imm : BitVec 13)
  | sub (dr : Reg) (cnd : Cond) (b : OpB)
  | and (dr : Reg) (cnd : Cond) (b : OpB)
  | add (dr : Reg) (cnd : Cond) (b : OpB)
  | or (dr : Reg) (cnd : Cond) (b : OpB)
  | xor (dr : Reg) (cnd : Cond) (b : OpB)
  | lsr (dr : Reg) (cnd : Cond) (b : OpB)
  | lsl (dr : Reg) (cnd : Cond) (b : OpB)
  | asr (dr : Reg) (cnd : Cond) (b : OpB)
  | mpy (dr : Reg) (cnd : Cond) (b : OpB)
  | ldilo (dr : Reg) (cnd : Cond) (b : OpB)
  | mpyuhi (dr : Reg) (cnd : Cond) (b : OpB)
  | mpyshi (dr : Reg) (cnd : Cond) (b : OpB)
  | brev (dr : Reg) (cnd : Cond) (b : OpB)
  | popc (dr : Reg) (cnd : Cond) (b : OpB)
  | rol (dr : Reg) (cnd : Cond) (b : OpB)
  | cmp (dr : Reg) (cnd : Cond) (b : OpB)
  | tst (dr : Reg) (cnd : Cond) (b : OpB)
  | lod (dr : Reg) (cnd : Cond) (b : OpB)
  | sto (dr : Reg) (cnd : Cond) (b : OpB)
  | divu (dr : Reg) (cnd : Cond) (b : OpB)
  | divs (dr : Reg) (cnd : Cond) (b : OpB)
  | fpadd (dr : Reg) (cnd : Cond) (b : OpB)
  | fpsub (dr : Reg) (cnd : Cond) (b : OpB)
  | fpmpy (dr : Reg) (cnd : Cond) (b : OpB)
  | fpdiv (dr : Reg) (cnd : Cond) (b : OpB)
  | fpi2f (dr : Reg) (cnd : Cond) (b : OpB)
  | fpf2i (dr : Reg) (cnd : Cond) (b : OpB)
  | reserved1e (dr : Reg) (cnd : Cond) (b : OpB)
  | reserved1f (dr : Reg) (cnd : Cond) (b : OpB)
  deriving DecidableEq, Repr

end Sys2Proof
end

