-- ==== Sys2Proof/WellFormed.lean ====
section
/-!
DEFINITION. Which terms of `Instr` stand for a word. The only terms that do not are opcodes 5'h18 to 5'h1f named as
floating-point or reserved rows with DR = 14 or 15: those words belong to the NOOP group (30_encoding.md R107, R110;
46_floating_point.md R202).
-/

namespace Sys2Proof

/-- `DR` in 0..13, as the floating-point and reserved rows need it (R200, R202). -/
def Reg.isGpr : Reg → Bool
  | .gpr _ => true
  | .cc => false
  | .pc => false

/-- A half that stands for 14 bits of a word (R222, R227). -/
def Half.wellFormed : Half → Bool
  | .unbuilt _ dr _ => dr.isGpr
  | .std _ _ _ => true
  | .mov _ _ => true
  | .ldi _ _ _ => true
  | .group _ _ _ => true

/-- An instruction that stands for a 32-bit word (R110). -/
def Instr.wellFormed : Instr → Bool
  | .vliw _ _ f g => f.wellFormed && g.wellFormed
  | .fpadd dr _ _ => dr.isGpr
  | .fpsub dr _ _ => dr.isGpr
  | .fpmpy dr _ _ => dr.isGpr
  | .fpdiv dr _ _ => dr.isGpr
  | .fpi2f dr _ _ => dr.isGpr
  | .fpf2i dr _ _ => dr.isGpr
  | .reserved1e dr _ _ => dr.isGpr
  | .reserved1f dr _ _ => dr.isGpr
  | .ldi _ _ => true
  | .noop _ _ => true
  | .brk _ _ => true
  | .lock _ _ => true
  | .illegalNoopgrp3 _ _ => true
  | .illegalNoopgrp4 _ _ => true
  | .illegalNoopgrp5 _ _ => true
  | .illegalNoopgrp6 _ _ => true
  | .illegalNoopgrp7 _ _ => true
  | .mov _ _ _ _ _ _ => true
  | .sub _ _ _ => true
  | .and _ _ _ => true
  | .add _ _ _ => true
  | .or _ _ _ => true
  | .xor _ _ _ => true
  | .lsr _ _ _ => true
  | .lsl _ _ _ => true
  | .asr _ _ _ => true
  | .mpy _ _ _ => true
  | .ldilo _ _ _ => true
  | .mpyuhi _ _ _ => true
  | .mpyshi _ _ _ => true
  | .brev _ _ _ => true
  | .popc _ _ _ => true
  | .rol _ _ _ => true
  | .cmp _ _ _ => true
  | .tst _ _ _ => true
  | .lod _ _ _ => true
  | .sto _ _ _ => true
  | .divu _ _ _ => true
  | .divs _ _ _ => true

end Sys2Proof
end

