-- ==== Sys2Proof/Decode.lean ====
section
/-!
DEFINITION. The decoder (30_encoding.md R103 to R112; 48_vliw.md R221 to R227), total on 32-bit words, and after it the
encoder, written from the same tables. Every 32-bit word is some row of spec/opcode_table.json, so no word is rejected: an
illegal encoding (R114) decodes to the row that names it, and its meaning takes IllegalInstruction.
-/

namespace Sys2Proof

/-! ## Fields -/

/-- The register field's code: 0..13, CC = 14, PC = 15 (R122). -/
def Reg.code : Reg → BitVec 4
  | .gpr n => BitVec.ofNat 4 n.val
  | .cc => 14#4
  | .pc => 15#4

/-- The register a 4-bit field names (R122). -/
def decodeReg (r : BitVec 4) : Reg :=
  if h : r.toNat < 14 then .gpr ⟨r.toNat, h⟩ else if r = 14#4 then .cc else .pc

/-- The condition's 3-bit code (R116). -/
def Cond.code : Cond → BitVec 3
  | .always => 0#3
  | .lt => 1#3
  | .z => 2#3
  | .nz => 3#3
  | .gt => 4#3
  | .ge => 5#3
  | .c => 6#3
  | .v => 7#3

/-- The condition a 3-bit field names (R116). -/
def decodeCond (c : BitVec 3) : Cond :=
  match c.toNat with
  | 0 => .always
  | 1 => .lt
  | 2 => .z
  | 3 => .nz
  | 4 => .gt
  | 5 => .ge
  | 6 => .c
  | _ => .v

/-- The 2-bit code of a VLIW condition (R226). -/
def Cond2.code : Cond2 → BitVec 2
  | .always => 0#2
  | .lt => 1#2
  | .z => 2#2
  | .nz => 3#2

/-- The condition a 2-bit field of a VLIW word names (R226). -/
def decodeCond2 (c : BitVec 2) : Cond2 :=
  match c.toNat with
  | 0 => .always
  | 1 => .lt
  | 2 => .z
  | _ => .nz

/-- Operand B from its 19 bits: bit 18 selects (R104). -/
def decodeOpB (b : BitVec 19) : OpB :=
  if b.getLsbD 18 then .reg (decodeReg (b.extractLsb' 14 4)) (b.extractLsb' 0 14) else .imm (b.extractLsb' 0 18)

/-- Operand B of a VLIW half from its 5 bits: bit 4 selects (R223). -/
def decodeHalfB (b : BitVec 5) : HalfB :=
  if b.getLsbD 4 then .reg (decodeReg (b.extractLsb' 0 4)) else .imm (b.extractLsb' 0 4)

/-! ## VLIW halves (R222) -/

/-- One half from its `DR`, `Op` and `OpB` fields, in the order of R222. -/
def decodeHalf (dr : BitVec 4) (op : BitVec 5) (b : BitVec 5) : Half :=
  match op.toNat with
  | 0x00 => .std .sub (decodeReg dr) (decodeHalfB b)
  | 0x01 => .std .and (decodeReg dr) (decodeHalfB b)
  | 0x02 => .std .add (decodeReg dr) (decodeHalfB b)
  | 0x03 => .std .or (decodeReg dr) (decodeHalfB b)
  | 0x04 => .std .xor (decodeReg dr) (decodeHalfB b)
  | 0x05 => .std .lsr (decodeReg dr) (decodeHalfB b)
  | 0x06 => .std .lsl (decodeReg dr) (decodeHalfB b)
  | 0x07 => .std .asr (decodeReg dr) (decodeHalfB b)
  | 0x08 => .std .mpy (decodeReg dr) (decodeHalfB b)
  | 0x09 => .std .ldilo (decodeReg dr) (decodeHalfB b)
  | 0x0a => .std .mpyuhi (decodeReg dr) (decodeHalfB b)
  | 0x0b => .std .mpyshi (decodeReg dr) (decodeHalfB b)
  | 0x0c => .std .brev (decodeReg dr) (decodeHalfB b)
  | 0x0d => .std .popc (decodeReg dr) (decodeHalfB b)
  | 0x0e => .std .rol (decodeReg dr) (decodeHalfB b)
  | 0x0f => .mov (decodeReg dr) (decodeHalfB b)
  | 0x10 => .std .cmp (decodeReg dr) (decodeHalfB b)
  | 0x11 => .std .tst (decodeReg dr) (decodeHalfB b)
  | 0x12 => .std .lod (decodeReg dr) (decodeHalfB b)
  | 0x13 => .std .sto (decodeReg dr) (decodeHalfB b)
  | 0x14 => .std .divu (decodeReg dr) (decodeHalfB b)
  | 0x15 => .std .divs (decodeReg dr) (decodeHalfB b)
  | 0x16 => .ldi (decodeReg dr) false b
  | 0x17 => .ldi (decodeReg dr) true b
  | _ =>
    if dr.extractLsb' 1 3 = 7#3 then .group (dr.getLsbD 0) (op.extractLsb' 0 3) b
    else .unbuilt (op.extractLsb' 0 3) (decodeReg dr) b

/-- A word with bit 31 = 1 (R221). -/
def decodeVliw (w : Word) : Instr :=
  .vliw (w.getLsbD 21) (decodeCond2 (w.extractLsb' 19 2))
    (decodeHalf (w.extractLsb' 27 4) (w.extractLsb' 22 5) (w.extractLsb' 14 5))
    (decodeHalf (w.extractLsb' 10 4) (w.extractLsb' 5 5) (w.extractLsb' 0 5))

/-! ## Whole words (R103 to R107, R110, R112) -/

/-- Whether a word is in the NOOP group's register space: bits 30..28 = 111 (R107, R202). -/
def inNoopSpace (w : Word) : Bool := w.extractLsb' 28 3 == 7#3

/-- A word with bit 31 = 0, by the opcode table (R112) and the overlay of R202. -/
def decodeSingle (w : Word) : Instr :=
  let dr := decodeReg (w.extractLsb' 27 4)
  let cnd := decodeCond (w.extractLsb' 19 3)
  let b := decodeOpB (w.extractLsb' 0 19)
  let bit27 := w.getLsbD 27
  let payload := w.extractLsb' 0 22
  match (w.extractLsb' 22 5).toNat with
  | 0x00 => .sub dr cnd b
  | 0x01 => .and dr cnd b
  | 0x02 => .add dr cnd b
  | 0x03 => .or dr cnd b
  | 0x04 => .xor dr cnd b
  | 0x05 => .lsr dr cnd b
  | 0x06 => .lsl dr cnd b
  | 0x07 => .asr dr cnd b
  | 0x08 => .mpy dr cnd b
  | 0x09 => .ldilo dr cnd b
  | 0x0a => .mpyuhi dr cnd b
  | 0x0b => .mpyshi dr cnd b
  | 0x0c => .brev dr cnd b
  | 0x0d => .popc dr cnd b
  | 0x0e => .rol dr cnd b
  | 0x0f => .mov dr cnd (w.getLsbD 18) (decodeReg (w.extractLsb' 14 4)) (w.getLsbD 13) (w.extractLsb' 0 13)
  | 0x10 => .cmp dr cnd b
  | 0x11 => .tst dr cnd b
  | 0x12 => .lod dr cnd b
  | 0x13 => .sto dr cnd b
  | 0x14 => .divu dr cnd b
  | 0x15 => .divs dr cnd b
  | 0x16 => .ldi dr (w.extractLsb' 0 23)
  | 0x17 => .ldi dr (w.extractLsb' 0 23)
  | 0x18 => if inNoopSpace w then .noop bit27 payload else .fpadd dr cnd b
  | 0x19 => if inNoopSpace w then .brk bit27 payload else .fpsub dr cnd b
  | 0x1a => if inNoopSpace w then .lock bit27 payload else .fpmpy dr cnd b
  | 0x1b => if inNoopSpace w then .illegalNoopgrp3 bit27 payload else .fpdiv dr cnd b
  | 0x1c => if inNoopSpace w then .illegalNoopgrp4 bit27 payload else .fpi2f dr cnd b
  | 0x1d => if inNoopSpace w then .illegalNoopgrp5 bit27 payload else .fpf2i dr cnd b
  | 0x1e => if inNoopSpace w then .illegalNoopgrp6 bit27 payload else .reserved1e dr cnd b
  | _ => if inNoopSpace w then .illegalNoopgrp7 bit27 payload else .reserved1f dr cnd b

/-- The instruction a 32-bit word stands for (R110). -/
def decode (w : Word) : Instr :=
  if w.getLsbD 31 then decodeVliw w else decodeSingle w

/-- The host's question (an instruction of `nbits` bits that are `w`): a ZipCPU instruction is one 32-bit word (R100), so
the answer is the word's instruction, and none for a number that is no 32-bit word. -/
def decodeTableWord (nbits w : Nat) : Option Instr :=
  if nbits ≤ 32 ∧ w < 2 ^ 32 then some (decode (BitVec.ofNat 32 w)) else none

/-! ## The encoder: the word values of R103 to R107 and R221 -/

/-- Operand B's 19 bits (R104). -/
def OpB.bits : OpB → Nat
  | .imm i => i.toNat
  | .reg br off => 2 ^ 18 + br.code.toNat * 2 ^ 14 + off.toNat

/-- A half's 5-bit operand B (R223). -/
def HalfB.bits : HalfB → Nat
  | .imm i => i.toNat
  | .reg br => 2 ^ 4 + br.code.toNat

/-- The opcode of a standard operation (R112). -/
def StdOp.code : StdOp → Nat
  | .sub => 0x00
  | .and => 0x01
  | .add => 0x02
  | .or => 0x03
  | .xor => 0x04
  | .lsr => 0x05
  | .lsl => 0x06
  | .asr => 0x07
  | .mpy => 0x08
  | .ldilo => 0x09
  | .mpyuhi => 0x0a
  | .mpyshi => 0x0b
  | .brev => 0x0c
  | .popc => 0x0d
  | .rol => 0x0e
  | .cmp => 0x10
  | .tst => 0x11
  | .lod => 0x12
  | .sto => 0x13
  | .divu => 0x14
  | .divs => 0x15

/-- A half's `DR` field (R221, R227). -/
def Half.drBits : Half → Nat
  | .std _ dr _ => dr.code.toNat
  | .mov dr _ => dr.code.toNat
  | .ldi dr _ _ => dr.code.toNat
  | .group bit _ _ => 14 + bit.toNat
  | .unbuilt _ dr _ => dr.code.toNat

/-- A half's `Op` field (R222, R225, R227). -/
def Half.opBits : Half → Nat
  | .std op _ _ => op.code
  | .mov _ _ => 0x0f
  | .ldi _ low _ => 0x16 + low.toNat
  | .group _ sel _ => 0x18 + sel.toNat
  | .unbuilt sel _ _ => 0x18 + sel.toNat

/-- A half's `OpB` field (R223, R225, R227). -/
def Half.opbBits : Half → Nat
  | .std _ _ b => b.bits
  | .mov _ b => b.bits
  | .ldi _ _ imm => imm.toNat
  | .group _ _ rsvd => rsvd.toNat
  | .unbuilt _ _ b => b.toNat

/-- The standard format's word value (R103). -/
def encodeStd (op : Nat) (dr : Reg) (cnd : Cond) (b : OpB) : Word :=
  BitVec.ofNat 32 (dr.code.toNat * 2 ^ 27 + op * 2 ^ 22 + cnd.code.toNat * 2 ^ 19 + b.bits)

/-- The NOOP group's word value (R107): `DR` is 14 or 15, bits 24..22 select. -/
def encodeGroup (sel : Nat) (bit27 : Bool) (payload : BitVec 22) : Word :=
  BitVec.ofNat 32 (7 * 2 ^ 28 + bit27.toNat * 2 ^ 27 + (0x18 + sel) * 2 ^ 22 + payload.toNat)

/-- The LDI format's word value (R106). -/
def encodeLdi (dr : Reg) (imm : BitVec 23) : Word :=
  BitVec.ofNat 32 (dr.code.toNat * 2 ^ 27 + 0xb * 2 ^ 23 + imm.toNat)

/-- The MOV format's word value (R105). -/
def encodeMov (dr : Reg) (cnd : Cond) (a : Bool) (br : Reg) (b : Bool) (imm : BitVec 13) : Word :=
  BitVec.ofNat 32 (dr.code.toNat * 2 ^ 27 + 0x0f * 2 ^ 22 + cnd.code.toNat * 2 ^ 19 + a.toNat * 2 ^ 18
    + br.code.toNat * 2 ^ 14 + b.toNat * 2 ^ 13 + imm.toNat)

/-- The VLIW format's word value (R221). -/
def encodeVliw (c2 : Bool) (cnd : Cond2) (f g : Half) : Word :=
  BitVec.ofNat 32 (2 ^ 31 + f.drBits * 2 ^ 27 + f.opBits * 2 ^ 22 + c2.toNat * 2 ^ 21 + cnd.code.toNat * 2 ^ 19
    + f.opbBits * 2 ^ 14 + g.drBits * 2 ^ 10 + g.opBits * 2 ^ 5 + g.opbBits)

/-- The word of an instruction. -/
def encode : Instr → Word
  | .vliw c2 cnd f g => encodeVliw c2 cnd f g
  | .ldi dr imm => encodeLdi dr imm
  | .noop bit27 payload => encodeGroup 0 bit27 payload
  | .brk bit27 payload => encodeGroup 1 bit27 payload
  | .lock bit27 payload => encodeGroup 2 bit27 payload
  | .illegalNoopgrp3 bit27 payload => encodeGroup 3 bit27 payload
  | .illegalNoopgrp4 bit27 payload => encodeGroup 4 bit27 payload
  | .illegalNoopgrp5 bit27 payload => encodeGroup 5 bit27 payload
  | .illegalNoopgrp6 bit27 payload => encodeGroup 6 bit27 payload
  | .illegalNoopgrp7 bit27 payload => encodeGroup 7 bit27 payload
  | .mov dr cnd a br b imm => encodeMov dr cnd a br b imm
  | .sub dr cnd b => encodeStd 0x00 dr cnd b
  | .and dr cnd b => encodeStd 0x01 dr cnd b
  | .add dr cnd b => encodeStd 0x02 dr cnd b
  | .or dr cnd b => encodeStd 0x03 dr cnd b
  | .xor dr cnd b => encodeStd 0x04 dr cnd b
  | .lsr dr cnd b => encodeStd 0x05 dr cnd b
  | .lsl dr cnd b => encodeStd 0x06 dr cnd b
  | .asr dr cnd b => encodeStd 0x07 dr cnd b
  | .mpy dr cnd b => encodeStd 0x08 dr cnd b
  | .ldilo dr cnd b => encodeStd 0x09 dr cnd b
  | .mpyuhi dr cnd b => encodeStd 0x0a dr cnd b
  | .mpyshi dr cnd b => encodeStd 0x0b dr cnd b
  | .brev dr cnd b => encodeStd 0x0c dr cnd b
  | .popc dr cnd b => encodeStd 0x0d dr cnd b
  | .rol dr cnd b => encodeStd 0x0e dr cnd b
  | .cmp dr cnd b => encodeStd 0x10 dr cnd b
  | .tst dr cnd b => encodeStd 0x11 dr cnd b
  | .lod dr cnd b => encodeStd 0x12 dr cnd b
  | .sto dr cnd b => encodeStd 0x13 dr cnd b
  | .divu dr cnd b => encodeStd 0x14 dr cnd b
  | .divs dr cnd b => encodeStd 0x15 dr cnd b
  | .fpadd dr cnd b => encodeStd 0x18 dr cnd b
  | .fpsub dr cnd b => encodeStd 0x19 dr cnd b
  | .fpmpy dr cnd b => encodeStd 0x1a dr cnd b
  | .fpdiv dr cnd b => encodeStd 0x1b dr cnd b
  | .fpi2f dr cnd b => encodeStd 0x1c dr cnd b
  | .fpf2i dr cnd b => encodeStd 0x1d dr cnd b
  | .reserved1e dr cnd b => encodeStd 0x1e dr cnd b
  | .reserved1f dr cnd b => encodeStd 0x1f dr cnd b

end Sys2Proof
end

