-- ==== Sys2Proof/Config.lean ====
section
/-!
DEFINITION. The build parameters of 00_scope.md R6 (held in State as plain data, entry 3 of the assumption log) and the
free values: constants with no body, for what the spec leaves to `draw()` (R10).
-/

namespace Sys2Proof

/-- The two containers the CPU is delivered in (R1, R6, R392). -/
inductive Container
  | zipSystem
  | zipBones
  deriving DecidableEq, Repr

/-- What stands behind a range of bus addresses (20_memory.md R78). `rom err`: a write ends in a bus error when `err`
holds and is lost otherwise (entry 19). -/
inductive RegionKind
  | ram
  | rom (writeErr : Bool)
  | device
  deriving DecidableEq, Repr

/-- One range of the platform's map (R78): `size` words from `base`. -/
structure Region where
  base : Nat
  size : Nat
  kind : RegionKind
  deriving DecidableEq, Repr

/-- What drives one line of the secondary interrupt controller (60_exceptions.md R359, parameter CTRIC_MAP). -/
inductive CtricSource
  | counter (k : Fin 8)
  | ext (line : Nat)
  | unused
  deriving DecidableEq, Repr

/-- The build parameters of R6 that change what a program observes, and the open parameters of
92_eei_decisions.md part 2. -/
structure Config where
  /-- `IMPLEMENT_MPY`, 0..4; 0: the multiplies are illegal (R114). -/
  implementMpy : Nat
  /-- `IMPLEMENT_DIVIDE`; off: the divides are illegal (R114). -/
  implementDivide : Bool
  /-- `OPT_VLIW`; off: a word with bit 31 set is illegal (R114). -/
  optVliw : Bool
  /-- `IMPLEMENT_LOCK`; off: LOCK is illegal (R114). -/
  implementLock : Bool
  /-- `OPT_PIPELINED`; off: no instruction cache, and LOCK is illegal (R88, R197). -/
  pipelined : Bool
  /-- `LGICACHE`: the instruction cache holds at most 2^lgicache words (R51, R88). -/
  lgicache : Nat
  /-- `RESET_ADDRESS` (R400). -/
  resetAddress : Word
  /-- `START_HALTED` (R402), of either container (DESIGN CHOICE, entry 3). -/
  startHalted : Bool
  /-- `EXTERNAL_INTERRUPTS`: how many external interrupt wires exist (R6, R391). -/
  externalInterrupts : Nat
  /-- `INCLUDE_DMA_CONTROLLER` (R367). -/
  includeDma : Bool
  /-- `INCLUDE_ACCOUNTING_COUNTERS` (R365). -/
  includeCounters : Bool
  /-- ZipSystem or ZipBones (R6). -/
  container : Container
  /-- `PERIPH_BASE` (R77). -/
  periphBase : Word
  /-- `CC_UPPER`, bits 31..16 of both CC registers (R46). -/
  ccUpper : BitVec 16
  /-- `CTRIC_MAP`: the source of each line of the secondary controller, line 0 first (R359). -/
  ctricMap : List CtricSource
  /-- `BUS_WATCHDOG_COUNT`: the clocks after which a bus transaction is ended with an error (R362). -/
  busWatchdogCount : Nat
  /-- Whether DMALEN, DMA_SRC and DMA_DST read back their running values (R369 leaves it open, entry 24). -/
  dmaRunningReadback : Bool
  /-- The platform's memory map outside 0xc0000000..0xffffffff (R76, R78). -/
  platform : List Region
  deriving DecidableEq, Repr

/-- CTRIC_MAP of `Config.standard`: the eight counters, then the external lines beyond the primary controller's nine
(R358, R359; DESIGN CHOICE, entry 22). -/
def Config.standardCtricMap : List CtricSource :=
  [.counter 0, .counter 1, .counter 2, .counter 3, .counter 4, .counter 5, .counter 6, .counter 7,
   .ext 9, .ext 10, .ext 11, .ext 12, .ext 13, .ext 14, .ext 15]

/-- The build that `State.reset` stands for: every option on, as the spec's examples assume (R6); DESIGN CHOICE,
entry 3. PERIPH_BASE is the spec's (R77, D1). -/
def Config.standard : Config where
  implementMpy := 1
  implementDivide := true
  optVliw := true
  implementLock := true
  pipelined := true
  lgicache := 10
  resetAddress := 0x100#32
  startHalted := false
  externalInterrupts := 16
  includeDma := true
  includeCounters := true
  container := .zipSystem
  periphBase := 0xc0000000#32
  ccUpper := 0#16
  ctricMap := Config.standardCtricMap
  busWatchdogCount := 1000
  dmaRunningReadback := false
  platform := [⟨0, 0xc0000000, .ram⟩]

/-- The `k`-th free bit: what the spec writes `draw()` for a flag (R190, R191). No body: nothing can be proved of it. -/
opaque Config.freeBit : Nat → Bool

/-- The `k`-th free word: what a platform device answers (R78), what a register that the spec calls unspecified after a
warm reset holds (R404). No body. -/
opaque Config.freeWord : Nat → Word

/-- What a word of memory that nothing has loaded or written holds: arbitrary but fixed for each address
(92_eei_decisions.md D42). No body. -/
opaque Config.powerOnWord : Word → Word

end Sys2Proof
end

