-- ==== Sys2Proof/Machine/State.lean ====
section
/-!
DEFINITION. The machine's state as plain data (10_state.md R20 to R60; 60_exceptions.md R355 to R377; 70_reset_and_hazards.md
R401, R404), the reasons a step can stop, and the state after a power-on reset. INVENTORY.md lists every field with its rule.
-/

namespace Sys2Proof.Machine

open Sys2Proof

/-- The condition codes of one set: CC bits 0 to 3 (10_state.md R31 to R34). -/
structure Flags where
  z : Bool
  c : Bool
  n : Bool
  v : Bool
  deriving DecidableEq, Repr

/-- One of the two register sets (R20): entries 0..13, the program counter, and the CC bits that every set has for
itself (R30). -/
structure RegSet where
  r : Vector Word 14
  pc : Word
  flags : Flags
  ill : Bool
  busErr : Bool
  divErr : Bool
  fpErr : Bool
  phase : Bool
  deriving DecidableEq, Repr

/-- An interrupt controller: master enable, line enables, tripped states (60_exceptions.md R356). -/
structure Pic where
  mie : Bool
  en : BitVec 15
  st : BitVec 15
  deriving DecidableEq, Repr

/-- A timer (R360) or the watchdog (R361). -/
structure Timer where
  value : BitVec 31
  reload : Bool
  interval : BitVec 31
  deriving DecidableEq, Repr

/-- The Jiffies peripheral (R363): the counter, the time of the next interrupt, whether one is armed. -/
structure Jiffies where
  now : Word
  when_ : Word
  armed : Bool
  deriving DecidableEq, Repr

/-- The DMA controller: its registers (R367, R368) and the transfer in progress (R369). -/
structure Dma where
  len : Word
  src : Word
  dst : Word
  noIncSrc : Bool
  noIncDst : Bool
  trigger : Bool
  line : BitVec 5
  chunk : BitVec 10
  active : Bool
  err : Bool
  remaining : Word
  curSrc : Word
  curDst : Word
  buffer : List Word
  deriving DecidableEq, Repr

/-- The ZipSystem peripherals (R355). `counters` are MTASK, MMSTL, MPSTL, MICNT, UTASK, UMSTL, UPSTL, UICNT. -/
structure Periph where
  pic : Pic
  ctric : Pic
  tmra : Timer
  tmrb : Timer
  tmrc : Timer
  wdt : Timer
  wbu : Word
  jiff : Jiffies
  counters : Vector Word 8
  dma : Dma
  deriving DecidableEq, Repr

/-- One access of the host at the debug port (R370): ZIPCTRL is address 0, ZIPDATA address 1. -/
inductive HostAccess
  | writeCtrl (w : Word)
  | readCtrl
  | writeData (w : Word)
  | readData
  deriving DecidableEq, Repr

/-- What the environment holds for one bus transaction (20_memory.md R79; R362). -/
inductive BusTrouble
  /-- A slave or the interconnect raises ERR. -/
  | err
  /-- The transaction takes so many clocks, and the bus watchdog may end it. -/
  | clocks (n : Nat)
  deriving DecidableEq, Repr

/-- One transaction of a step and its trouble: the one with the address `addr` that comes after so many others with that
address. So every transaction has an outcome of its own (R362; the form is the model's own, entry 21). -/
structure BusFate where
  addr : Word
  after : Nat
  trouble : BusTrouble
  deriving DecidableEq, Repr

/-- What the spec lets the environment decide at one step (R312, R378; 20_memory.md R82, R88; 70 R430). The model's own
record, entry 7. -/
structure Env where
  /-- Clocks beyond the first that pass at this step (R430). -/
  ticks : Nat
  /-- New levels of the external interrupt wires, if they change (R391). -/
  ext : Option (BitVec 24)
  /-- New levels of the 32 DMA trigger wires, if they change (R368). -/
  dmaWires : Option (BitVec 32)
  /-- Whether an interrupt input that is high and not yet seen is first seen at this boundary (R312). -/
  seeIrq : Bool
  /-- Whether a posted store lands at this step (20_memory.md R82). -/
  drain : Bool
  /-- Whether the fetched word is kept in the cache (R88). -/
  fill : Bool
  /-- Addresses the prefetch reads ahead (R87). -/
  prefetch : List Word
  /-- Addresses the cache drops (R88). -/
  evict : List Word
  /-- The transactions of this step that end with ERR or take long (R79, R362). -/
  fates : List BusFate
  /-- Memory stalls and prefetch stalls counted at this step (R365). -/
  memStalls : Nat
  fetchStalls : Nat
  /-- How many bursts the DMA controller is granted (R369). -/
  dmaMoves : Nat
  /-- Words written by other bus masters, program loading among them (R84, R378). -/
  masters : List (Word × Word)
  /-- Words written by other masters between the halves of a VLIW word whose second half accesses memory (20_memory.md R75). -/
  midMasters : List (Word × Word)
  /-- Bursts the DMA controller is granted there. -/
  midDmaMoves : Nat
  /-- `i_rst` (70 R400). -/
  reset : Bool
  /-- The host's access at the debug port (R378). -/
  host : Option HostAccess
  deriving DecidableEq, Repr

/-- The choice in force where the schedule says nothing: one clock, interrupts seen at once, stores landing at once, the
DMA granted one burst, nobody else acting (DESIGN CHOICE, entry 7). -/
def Env.quiet : Env where
  ticks := 0
  ext := none
  dmaWires := none
  seeIrq := true
  drain := true
  fill := true
  prefetch := []
  evict := []
  fates := []
  memStalls := 0
  fetchStalls := 0
  dmaMoves := 1
  masters := []
  midMasters := []
  midDmaMoves := 0
  reset := false
  host := none

/-- The whole machine. -/
structure State where
  cfg : Config
  /-- The supervisor set, `x[0..15]` (R20). -/
  sup : RegSet
  /-- The user set, `x[16..31]` (R20). -/
  usr : RegSet
  /-- GIE, the mode (R36). -/
  gie : Bool
  /-- SLEEP (R35). -/
  sleep : Bool
  /-- STEP (R37). -/
  stepBit : Bool
  /-- BREAK_EN (R38). -/
  breakEn : Bool
  /-- UBREAK (R38). -/
  ubreak : Bool
  /-- TRAP (R40). -/
  trap : Bool
  /-- HALTED (R50). -/
  halted : Bool
  /-- `lock_left` (R53). -/
  lockLeft : Nat
  /-- Memory words by address, addresses rising; an unlisted word was never written (20_memory.md R70, R71). -/
  mem : List (Nat × Word)
  /-- The instruction cache by address, addresses rising (R51). -/
  icache : List (Nat × Word)
  /-- The store in flight: address and value (R52). -/
  posted : Option (Word × Word)
  /-- A store that landed while the CPU was stopped ended in a bus error, which is yet to be delivered (R52; 60 R314, entry
  9). -/
  storeErr : Bool
  /-- The external interrupt wires (R55, 60 R391). -/
  ext : BitVec 24
  /-- The DMA trigger wires (60 R368). -/
  dmaWires : BitVec 32
  per : Periph
  /-- The debug register address, ZIPCTRL bits 5..0 (60 R371). -/
  dbgAddr : BitVec 6
  /-- The word the host's last read returned (60 R374). -/
  dbgOut : Word
  /-- The interrupt input has been seen high and has not fallen since (60 R312, R341; the model's own, entry 29). -/
  irqSeen : Bool
  /-- How many free values have been drawn (00 R10; the model's own, entry 38). -/
  draws : Nat
  /-- The environment's choices for the coming steps, next first (the model's own, entry 7). -/
  env : List Env
  /-- The choice in force now (the model's own, entry 7). -/
  cur : Env
  deriving DecidableEq, Repr

/-- Why a step can fault. No program action is among the reasons: every exception of the CPU is taken. -/
inductive Fault
  /-- The host writes ZIPDATA while the CPU runs, which 60_exceptions.md R375 forbids. Raised by the host's access, never by
  an instruction. Safe. -/
  | debugWriteWhileRunning
  deriving DecidableEq, Repr

/-- Why an instruction can be refused: the four kinds of VLIW word that 48_vliw.md R232 puts outside the model's domain. -/
inductive Refusal
  /-- An instruction without a meaning. Raised by no arm of `exec`. Safe. -/
  | notModelled (mnemonic : String)
  /-- The first half of a VLIW word has CC or PC as destination and is not CMP, TST, STO or NOOP (R232). Raised by VLIW.
  Safe. -/
  | vliwFirstHalfWritesPcOrCc
  /-- A half of a VLIW word is BREAK or LOCK (R232). Raised by VLIW. Safe. -/
  | vliwBreakOrLock
  /-- A half of a VLIW word is a MOV with operand B's select bit 0 (R232). Raised by VLIW. Safe. -/
  | vliwMovImmediate
  /-- A half of a VLIW word is an LDI with opcode bit 0 set (R232). Raised by VLIW. Safe. -/
  | vliwLdiSixthBit
  deriving DecidableEq, Repr

/-- No flag set. -/
def Flags.clear : Flags := ⟨false, false, false, false⟩

/-- A register set of zeros with no cause bit (R401; the zeros are entry 4's). -/
def RegSet.cleared : RegSet where
  r := Vector.replicate 14 0#32
  pc := 0#32
  flags := Flags.clear
  ill := false
  busErr := false
  divErr := false
  fpErr := false
  phase := false

/-- A controller with nothing enabled and nothing tripped (70_reset_and_hazards.md R404). -/
def Pic.cleared : Pic := ⟨false, 0#15, 0#15⟩

/-- A stopped timer (R404). -/
def Timer.stopped : Timer := ⟨0#31, false, 0#31⟩

/-- The idle DMA controller (R404; the zeros are entry 5's). -/
def Dma.idle : Dma where
  len := 0#32
  src := 0#32
  dst := 0#32
  noIncSrc := false
  noIncDst := false
  trigger := false
  line := 0#5
  chunk := 0#10
  active := false
  err := false
  remaining := 0#32
  curSrc := 0#32
  curDst := 0#32
  buffer := []

/-- The peripherals after power-on (R404; the unspecified counters, Jiffies and WBU are entry 5's zeros). -/
def Periph.powerOn : Periph where
  pic := Pic.cleared
  ctric := Pic.cleared
  tmra := Timer.stopped
  tmrb := Timer.stopped
  tmrc := Timer.stopped
  wdt := Timer.stopped
  wbu := 0#32
  jiff := ⟨0#32, 0#32, false⟩
  counters := Vector.replicate 8 0#32
  dma := Dma.idle

/-- The machine of a build right after a power-on reset (R400, R401). START_HALTED is honoured whatever the container: for the
ZipBones the source names no such parameter (R402; DESIGN CHOICE, entry 3). -/
def State.powerOn (cfg : Config) : State where
  cfg := cfg
  sup := { RegSet.cleared with pc := cfg.resetAddress }
  usr := RegSet.cleared
  gie := false
  sleep := false
  stepBit := false
  breakEn := false
  ubreak := false
  trap := false
  halted := cfg.startHalted
  lockLeft := 0
  mem := []
  icache := []
  posted := none
  storeErr := false
  ext := 0#24
  dmaWires := 0#32
  per := Periph.powerOn
  dbgAddr := 0#6
  dbgOut := 0#32
  irqSeen := false
  draws := 0
  env := []
  cur := Env.quiet

/-- The machine right after reset: `Config.standard` after power-on. -/
def State.reset : State := State.powerOn Config.standard

end Sys2Proof.Machine
end

