-- ==== Sys2Proof/Machine/Memory.lean ====
section
/-!
DEFINITION. Word memory (20_memory.md R70, R71, R74) as a list of (address, word) pairs in one canonical form: addresses
strictly rising. An address that is not listed holds no written word. The instruction cache (10_state.md R51) has the
same form.
-/

namespace Sys2Proof.Machine

open Sys2Proof

/-- Words by address. -/
abbrev Memory := List (Nat × Word)

/-- The word listed at an address; none where nothing was written. -/
def Memory.read : Memory → Nat → Option Word
  | [], _ => none
  | (k, v) :: m, a => if k = a then some v else Memory.read m a

/-- Write one word, in its place by address. -/
def Memory.write : Memory → Nat → Word → Memory
  | [], a, w => [(a, w)]
  | (k, v) :: m, a, w =>
    if a < k then (a, w) :: (k, v) :: m else if a = k then (a, w) :: m else (k, v) :: Memory.write m a w

/-- Forget one address. -/
def Memory.drop : Memory → Nat → Memory
  | [], _ => []
  | (k, v) :: m, a => if k = a then m else (k, v) :: Memory.drop m a

/-- Whether every listed address is at least `lo`, they rise strictly, and all are 32-bit addresses. -/
def Memory.risesFrom : Nat → Memory → Bool
  | _, [] => true
  | lo, (k, _) :: m => decide (lo ≤ k) && decide (k < 2 ^ 32) && Memory.risesFrom (k + 1) m

/-- The canonical form. -/
def Memory.wf (m : Memory) : Bool := Memory.risesFrom 0 m

/-- What the machine finds in RAM or ROM at an address: the written word, or the word the address holds by itself
(92_eei_decisions.md D42: arbitrary but fixed; entry 2). -/
def Memory.fetch (m : Memory) (a : Word) : Word :=
  match Memory.read m a.toNat with
  | some v => v
  | none => Config.powerOnWord a

end Sys2Proof.Machine
end

