-- ==== Sys2Proof/Machine/Periph.lean ====
section
/-!
DEFINITION. The ZipSystem peripherals by themselves (60_exceptions.md R355 to R369): their registers' reads and writes,
and what one clock does to each.
-/

namespace Sys2Proof.Machine

open Sys2Proof

/-! ## Interrupt controllers (R356) -/

/-- Fifteen lines from a rule for each. -/
def linesOf (f : Nat → Bool) : BitVec 15 :=
  BitVec.ofNat 15 ((List.range 15).foldl (fun acc i => acc + (f i).toNat * 2 ^ i) 0)

/-- ANY: the controller's output (R356). -/
def Pic.any (p : Pic) : Bool := p.mie && (p.en &&& p.st) != 0#15

/-- The register as read: MIE, EN, ANY, ST (R356). -/
def Pic.read (p : Pic) : Word :=
  BitVec.ofBool p.mie ++ p.en ++ BitVec.ofBool p.any ++ p.st

/-- A state trips wherever its line is high, enabled or not (R356). -/
def Pic.trip (p : Pic) (lines : BitVec 15) : Pic := { p with st := p.st ||| lines }

/-- A write: states with a 1 are cleared and trip again at once while their line is high (`level`); enables are added
with bit 31 set and removed with it clear, and MIE becomes bit 31 (R356). -/
def Pic.write (p : Pic) (w : Word) (level : BitVec 15) : Pic where
  mie := w.getLsbD 31
  en := if w.getLsbD 31 then p.en ||| w.extractLsb' 16 15 else p.en &&& ~~~(w.extractLsb' 16 15)
  st := (p.st &&& ~~~(w.extractLsb' 0 15)) ||| level

/-! ## Timers (R360, R361) -/

/-- One clock of a timer, and whether its line pulses (R360). -/
def Timer.tick (t : Timer) : Timer × Bool :=
  if t.value = 0#31 then (t, false)
  else if t.value - 1#31 = 0#31 then ({ t with value := if t.reload then t.interval else 0#31 }, true)
  else ({ t with value := t.value - 1#31 }, false)

/-- A write to a timer (R360). -/
def Timer.write (w : Word) : Timer where
  value := w.extractLsb' 0 31
  reload := w.getLsbD 31
  interval := w.extractLsb' 0 31

/-- A write to the watchdog: one-shot, no reload (R361; bit 31 is not kept, entry 25). -/
def Timer.writeOneShot (w : Word) : Timer where
  value := w.extractLsb' 0 31
  reload := false
  interval := w.extractLsb' 0 31

/-- A timer as read (R360). -/
def Timer.read (t : Timer) : Word := BitVec.ofBool t.reload ++ t.value

/-! ## Jiffies (R363) -/

/-- One clock of the Jiffies counter, and whether its line pulses. -/
def Jiffies.tick (j : Jiffies) : Jiffies × Bool :=
  if j.armed && j.now + 1#32 == j.when_ then ({ j with now := j.now + 1#32, armed := false }, true)
  else ({ j with now := j.now + 1#32 }, false)

/-- A write: a time that is not in the future pulses at once; the nearer of two times is kept. -/
def Jiffies.write (j : Jiffies) (w : Word) : Jiffies × Bool :=
  if (w - j.now).sle 0#32 then (j, true)
  else if !j.armed || (w - j.when_).slt 0#32 then ({ j with when_ := w, armed := true }, false)
  else (j, false)

/-! ## Counters (R364, R365) -/

/-- A counter after `n` occurrences of its event, and whether it rolled over (R364). -/
def counterAdd (c : Word) (n : Nat) : Word × Bool :=
  (BitVec.ofNat 32 (c.toNat + n), decide (2 ^ 32 ≤ c.toNat + n))

/-- What each of the eight counters counts: clocks, memory stalls, prefetch stalls, instructions, and the same for the
user set while GIE is set (R365). -/
def counterEvents (gie : Bool) (clocks memStalls fetchStalls insns : Nat) : Vector Nat 8 :=
  if gie then #v[clocks, memStalls, fetchStalls, insns, clocks, memStalls, fetchStalls, insns]
  else #v[clocks, memStalls, fetchStalls, insns, 0, 0, 0, 0]

/-- The lines of the secondary controller that a set of counter roll-overs raises (R359, R366, CTRIC_MAP). -/
def ctricRollLines (map : List CtricSource) (rolled : Vector Bool 8) : BitVec 15 :=
  linesOf fun i =>
    match map[i]? with
    | some (.counter k) => rolled[k]
    | _ => false

/-- The lines of the secondary controller that the external wires hold high (R359). -/
def ctricLevel (map : List CtricSource) (ext : BitVec 24) : BitVec 15 :=
  linesOf fun i =>
    match map[i]? with
    | some (.ext line) => ext.getLsbD line
    | _ => false

/-- The counters after a batch of events; roll-overs trip the secondary controller (R364 to R366). -/
def Periph.count (p : Periph) (cfg : Config) (events : Vector Nat 8) : Periph :=
  if cfg.includeCounters then
    { p with
      counters := Vector.ofFn fun k => (counterAdd p.counters[k] events[k]).1
      ctric := p.ctric.trip (ctricRollLines cfg.ctricMap (Vector.ofFn fun k => (counterAdd p.counters[k] events[k]).2)) }
  else p

/-! ## The primary controller's lines (R358) -/

/-- The lines held high: the secondary controller on line 5, the first nine external wires on lines 6 to 14. -/
def picLevel (ctricAny : Bool) (ext : BitVec 24) : BitVec 15 :=
  ext.extractLsb' 0 9 ++ BitVec.ofBool ctricAny ++ 0#5

/-- The lines pulsed by the local peripherals: DMA 0, Jiffies 1, Timer C 2, Timer B 3, Timer A 4. -/
def picPulse (dma jiffies tmrc tmrb tmra : Bool) : BitVec 15 :=
  0#10 ++ BitVec.ofBool tmra ++ BitVec.ofBool tmrb ++ BitVec.ofBool tmrc ++ BitVec.ofBool jiffies ++ BitVec.ofBool dma

/-- One clock of every peripheral, and whether the watchdog expired (R356, R360, R361, R363, R365). `ext` are the
external wires. -/
def Periph.clock (p : Periph) (cfg : Config) (gie : Bool) (ext : BitVec 24) : Periph × Bool :=
  let q := p.count cfg (counterEvents gie 1 0 0 0)
  let ctric := q.ctric.trip (ctricLevel cfg.ctricMap ext)
  ({ q with
      tmra := p.tmra.tick.1
      tmrb := p.tmrb.tick.1
      tmrc := p.tmrc.tick.1
      wdt := p.wdt.tick.1
      jiff := p.jiff.tick.1
      ctric := ctric
      pic := (p.pic.trip (picPulse false p.jiff.tick.2 p.tmrc.tick.2 p.tmrb.tick.2 p.tmra.tick.2)).trip
        (picLevel ctric.any ext) },
    p.wdt.tick.2)

/-! ## The DMA controller's registers (R367, R368) -/

/-- DMACTRL as read (R368). -/
def Dma.readCtrl (d : Dma) : Word :=
  BitVec.ofBool d.active ++ BitVec.ofBool d.err ++ BitVec.ofBool d.noIncSrc ++ BitVec.ofBool d.noIncDst ++ 0#1
    ++ BitVec.ofNat 11 d.buffer.length ++ BitVec.ofBool d.trigger ++ d.line ++ d.chunk

/-- A write to DMACTRL: bit 30 is cleared; with the key 0xfed in bits 27..16 an idle controller starts, without it nothing
else changes (R368). It starts from the values last written to DMALEN, DMA_SRC and DMA_DST, after a completed or aborted
transfer too, whatever they read back as: R369 leaves that open (DESIGN CHOICE, entry 24). The second answer says that the
transfer completed at once, its length being 0 (R369, entry 24). -/
def Dma.writeCtrl (d : Dma) (w : Word) : Dma × Bool :=
  if d.active || w.extractLsb' 16 12 != 0xfed#12 then ({ d with err := false }, false)
  else
    ({ d with
        err := false
        noIncSrc := w.getLsbD 29
        noIncDst := w.getLsbD 28
        trigger := w.getLsbD 15
        line := w.extractLsb' 10 5
        chunk := w.extractLsb' 0 10
        active := d.len != 0#32
        remaining := d.len
        curSrc := d.src
        curDst := d.dst
        buffer := [] },
      d.len == 0#32)

/-- A write to DMALEN; ignored while a transfer runs (R367). -/
def Dma.writeLen (d : Dma) (w : Word) : Dma := if d.active then d else { d with len := w, remaining := w }

/-- A write to DMA_SRC; ignored while a transfer runs (R367). -/
def Dma.writeSrc (d : Dma) (w : Word) : Dma := if d.active then d else { d with src := w, curSrc := w }

/-- A write to DMA_DST; ignored while a transfer runs (R367). -/
def Dma.writeDst (d : Dma) (w : Word) : Dma := if d.active then d else { d with dst := w, curDst := w }

/-- DMALEN as read: the written or the running value (R369 leaves it open, entry 24). -/
def Dma.readLen (d : Dma) (running : Bool) : Word := if running then d.remaining else d.len

/-- DMA_SRC as read. -/
def Dma.readSrc (d : Dma) (running : Bool) : Word := if running then d.curSrc else d.src

/-- DMA_DST as read. -/
def Dma.readDst (d : Dma) (running : Bool) : Word := if running then d.curDst else d.dst

/-- How many words a burst may move: `chunk`, 0 standing for 1024, and no more than remain (R368, R369). -/
def Dma.burst (d : Dma) : Nat := min (if d.chunk = 0#10 then 1024 else d.chunk.toNat) d.remaining.toNat

/-! ## The register map (R355) -/

/-- The offsets that this build's peripherals answer (R355; 93_implementation_defined.md U14). -/
def periphPresent (cfg : Config) (k : Fin 20) : Bool :=
  decide (cfg.container = .zipSystem) && (k.val < 8 || (k.val < 16 && cfg.includeCounters) || (16 ≤ k.val && cfg.includeDma))

/-- A read of the register at an offset (R355). -/
def Periph.read (p : Periph) (cfg : Config) (k : Fin 20) : Word :=
  match k.val with
  | 0x00 => p.pic.read
  | 0x01 => p.wdt.read
  | 0x02 => p.wbu
  | 0x03 => p.ctric.read
  | 0x04 => p.tmra.read
  | 0x05 => p.tmrb.read
  | 0x06 => p.tmrc.read
  | 0x07 => p.jiff.now
  | 0x08 => p.counters[0]
  | 0x09 => p.counters[1]
  | 0x0a => p.counters[2]
  | 0x0b => p.counters[3]
  | 0x0c => p.counters[4]
  | 0x0d => p.counters[5]
  | 0x0e => p.counters[6]
  | 0x0f => p.counters[7]
  | 0x10 => p.dma.readCtrl
  | 0x11 => p.dma.readLen cfg.dmaRunningReadback
  | 0x12 => p.dma.readSrc cfg.dmaRunningReadback
  | _ => p.dma.readDst cfg.dmaRunningReadback

/-- A write of the register at an offset (R355); a write to the read-only WBU is ignored. -/
def Periph.write (p : Periph) (cfg : Config) (ext : BitVec 24) (k : Fin 20) (w : Word) : Periph :=
  match k.val with
  | 0x00 => { p with pic := p.pic.write w (picLevel p.ctric.any ext) }
  | 0x01 => { p with wdt := Timer.writeOneShot w }
  | 0x02 => p
  | 0x03 => { p with ctric := p.ctric.write w (ctricLevel cfg.ctricMap ext) }
  | 0x04 => { p with tmra := Timer.write w }
  | 0x05 => { p with tmrb := Timer.write w }
  | 0x06 => { p with tmrc := Timer.write w }
  | 0x07 => { p with
      jiff := (p.jiff.write w).1
      pic := p.pic.trip (picPulse false (p.jiff.write w).2 false false false) }
  | 0x08 => { p with counters := p.counters.set 0 w }
  | 0x09 => { p with counters := p.counters.set 1 w }
  | 0x0a => { p with counters := p.counters.set 2 w }
  | 0x0b => { p with counters := p.counters.set 3 w }
  | 0x0c => { p with counters := p.counters.set 4 w }
  | 0x0d => { p with counters := p.counters.set 5 w }
  | 0x0e => { p with counters := p.counters.set 6 w }
  | 0x0f => { p with counters := p.counters.set 7 w }
  | 0x10 => { p with
      dma := (p.dma.writeCtrl w).1
      pic := p.pic.trip (picPulse (p.dma.writeCtrl w).2 false false false false) }
  | 0x11 => { p with dma := p.dma.writeLen w }
  | 0x12 => { p with dma := p.dma.writeSrc w }
  | _ => { p with dma := p.dma.writeDst w }

end Sys2Proof.Machine
end

