-- ==== Sys2Proof/Machine/Bus.lean ====
section
/-!
DEFINITION. One bus transaction: a word read or a word written, or a bus error (00_scope.md R10; 20_memory.md R74 to R79;
60_exceptions.md R355, R362).
-/

namespace Sys2Proof.Machine

open Sys2Proof

/-- Bits 31 and 30 both 1: the addresses the CPU decodes for peripherals (20_memory.md R76). -/
def inPeriphSpace (a : Word) : Bool := a.extractLsb' 30 2 == 3#2

/-- The peripheral register an address names, if this build has it (R77, R355). -/
def periphIndex (cfg : Config) (a : Word) : Option (Fin 20) :=
  if h : (a - cfg.periphBase).toNat < 20 then
    if periphPresent cfg ⟨(a - cfg.periphBase).toNat, h⟩ then some ⟨(a - cfg.periphBase).toNat, h⟩ else none
  else none

/-- What the platform has at an address (R78); none: nothing answers. -/
def kindAt (cfg : Config) (a : Word) : Option RegionKind :=
  (cfg.platform.find? fun r => decide (r.base ≤ a.toNat) && decide (a.toNat < r.base + r.size)).map Region.kind

/-- The external interrupt wires that this build has (60 R391, R392; entry 39). -/
def State.extLines (s : State) : BitVec 24 :=
  match s.cfg.container with
  | .zipSystem => s.ext &&& BitVec.ofNat 24 (2 ^ min s.cfg.externalInterrupts 24 - 1)
  | .zipBones => s.ext &&& 1#24

/-! ## Bus errors -/

/-- Whether a trouble is a transaction that takes longer than the bus watchdog allots (R362). -/
def BusTrouble.overruns (count : Nat) (t : BusTrouble) : Bool :=
  match t with
  | .err => false
  | .clocks n => decide (count < n)

/-- Whether the bus watchdog ends the next transaction with this address (R362). -/
def State.timesOut (s : State) (a : Word) : Bool :=
  decide (s.cfg.container = .zipSystem)
    && s.cur.fates.any fun f => f.addr == a && f.after == 0 && f.trouble.overruns s.cfg.busWatchdogCount

/-- Whether the next transaction with this address ends with ERR (R79). -/
def State.raisesErr (s : State) (a : Word) : Bool := s.cur.fates.contains ⟨a, 0, .err⟩

/-- What is left of an entry of the schedule when a transaction with address `a` has taken place (entry 21). -/
def BusFate.passed (a : Word) (f : BusFate) : Option BusFate :=
  if f.addr = a then
    match f.after with
    | 0 => none
    | n + 1 => some { f with after := n }
  else some f

/-- A transaction with address `a` has taken place: what the schedule says of it is used up. -/
def State.turn (s : State) (a : Word) : State :=
  { s with cur := { s.cur with fates := s.cur.fates.filterMap (BusFate.passed a) } }

/-- What takes a transaction: a peripheral register or something of the platform. -/
inductive Target
  | register (k : Fin 20)
  | region (kind : RegionKind)
  deriving DecidableEq, Repr

/-- What is at an address (R76 to R78); none: nothing answers. -/
def targetAt (cfg : Config) (a : Word) : Option Target :=
  if inPeriphSpace a then (periphIndex cfg a).map .register else (kindAt cfg a).map .region

/-- One bus transaction: what takes it, or none for a bus error (R79). Any transaction may fail, and a time-out leaves its
address in WBU (R362). -/
def State.transact (s : State) (a : Word) : Option Target × State :=
  let t := s.turn a
  if s.timesOut a then (none, { t with per := { t.per with wbu := a } })
  else if s.raisesErr a then (none, t)
  else (targetAt s.cfg a, t)

/-! ## Reads and writes -/

/-- A word from a platform device: free (R78, entry 19). -/
def State.drawWord (s : State) : Word × State := (Config.freeWord s.draws, { s with draws := s.draws + 1 })

/-- `MemRead(a, 32)`: the word, or none for a bus error (00 R10). -/
def State.busRead (s : State) (a : Word) : Option Word × State :=
  match s.transact a with
  | (none, t) => (none, t)
  | (some (.register k), t) => (some (t.per.read t.cfg k), t)
  | (some (.region .ram), t) => (some (Memory.fetch t.mem a), t)
  | (some (.region (.rom _)), t) => (some (Memory.fetch t.mem a), t)
  | (some (.region .device), t) => (some t.drawWord.1, t.drawWord.2)

/-- `MemWrite(a, 32, w)`: whether it was acknowledged; a write that errs changes no memory (00 R10; 47 R213). -/
def State.busWrite (s : State) (a w : Word) : Bool × State :=
  match s.transact a with
  | (none, t) => (false, t)
  | (some (.register k), t) => (true, { t with per := t.per.write t.cfg t.extLines k w })
  | (some (.region .ram), t) => (true, { t with mem := Memory.write t.mem a.toNat w })
  | (some (.region (.rom err)), t) => (!err, t)
  | (some (.region .device), t) => (true, t)

/-- Write the store in flight, if there is one (20_memory.md R81, R82); false: it ended in a bus error. -/
def State.drainPosted (s : State) : Bool × State :=
  match s.posted with
  | none => (true, s)
  | some (a, w) => ({ s with posted := none } : State).busWrite a w

end Sys2Proof.Machine
end

