-- ==== Sys2Proof/Machine/Masters.lean ====
section
/-!
DEFINITION. The bus masters beside the CPU: the platform's (20_memory.md R84, R93) and the DMA controller (60_exceptions.md
R367 to R369).
-/

namespace Sys2Proof.Machine

open Sys2Proof

/-! ## Other masters -/

/-- Whether another master can have the bus: no locked sequence is running and no store is in flight (20_memory.md R84,
R86; 45 R197). -/
def State.busFree (s : State) : Bool := s.lockLeft == 0 && s.posted.isNone

/-- Whether an address is RAM or ROM of the platform. -/
def isMemory (cfg : Config) (a : Word) : Bool :=
  !inPeriphSpace a &&
    match kindAt cfg a with
    | some .ram => true
    | some (.rom _) => true
    | some .device => false
    | none => false

/-- One word written to memory by another master or by the host's program loading (60 R378; entry 41). -/
def State.masterWrite (s : State) (p : Word × Word) : State :=
  if s.busFree && isMemory s.cfg p.1 then { s with mem := Memory.write s.mem p.1.toNat p.2 } else s

/-! ## The DMA controller (R369) -/

/-- The next address of a burst (R368, R369). -/
def dmaNext (fixed : Bool) (a : Word) : Word := if fixed then a else a + 1#32

/-- Read so many words into the transfer buffer, lowest address first; false: a bus error. -/
def State.dmaRead : Nat → State → Bool × State
  | 0, s => (true, s)
  | n + 1, s =>
    match s.busRead s.per.dma.curSrc with
    | (none, t) => (false, t)
    | (some v, t) =>
      State.dmaRead n { t with per := { t.per with dma := { t.per.dma with
        buffer := t.per.dma.buffer ++ [v]
        curSrc := dmaNext t.per.dma.noIncSrc t.per.dma.curSrc } } }

/-- Write words from the transfer buffer, lowest address first; false: a bus error. -/
def State.dmaWrite : List Word → State → Bool × State
  | [], s => (true, s)
  | v :: vs, s =>
    match s.busWrite s.per.dma.curDst v with
    | (false, t) => (false, t)
    | (true, t) =>
      State.dmaWrite vs { t with per := { t.per with dma := { t.per.dma with
        remaining := t.per.dma.remaining - 1#32
        curDst := dmaNext t.per.dma.noIncDst t.per.dma.curDst } } }

/-- A bus error aborts the transfer and sets bit 30 (R369). -/
def State.dmaAbort (s : State) : State :=
  { s with per := { s.per with dma := { s.per.dma with active := false, err := true, buffer := [] } } }

/-- After a write burst: the buffer is empty, and when nothing remains the controller goes idle and interrupts (R369). -/
def State.dmaWritten (s : State) : State :=
  if s.per.dma.remaining = 0#32 then
    { s with per := { s.per with
        dma := { s.per.dma with active := false, buffer := [] }
        pic := s.per.pic.trip (picPulse true false false false false) } }
  else { s with per := { s.per with dma := { s.per.dma with buffer := [] } } }

/-- Whether a transfer may read its next burst: at once, or while its trigger wire is high (R368). -/
def State.dmaTriggered (s : State) : Bool := !s.per.dma.trigger || s.dmaWires.getLsbD s.per.dma.line.toNat

/-- One grant of the bus to the DMA controller: a read burst, or the write burst that follows it (R369; 20_memory.md
R84). -/
def State.dmaMove (s : State) : State :=
  if decide (s.cfg.container = .zipSystem) && s.per.dma.active && s.busFree then
    if s.per.dma.buffer = [] then
      if s.dmaTriggered then
        match s.dmaRead s.per.dma.burst with
        | (true, t) => t
        | (false, t) => t.dmaAbort
      else s
    else
      match s.dmaWrite s.per.dma.buffer with
      | (true, t) => t.dmaWritten
      | (false, t) => t.dmaAbort
  else s

/-- So many grants. -/
def State.dmaMoves : Nat → State → State
  | 0, s => s
  | n + 1, s => State.dmaMoves n s.dmaMove

/-! ## Inside a VLIW word -/

/-- The bus between the two halves of a VLIW word: other masters and the DMA controller may have it, unless a locked sequence
holds it (20_memory.md R75, R93). -/
def State.grantBus (s : State) : State := State.dmaMoves s.cur.midDmaMoves (s.cur.midMasters.foldl State.masterWrite s)

end Sys2Proof.Machine
end

