-- ==== Sys2Proof/Machine/Flags.lean ====
section
/-!
DEFINITION. Conditions (40_execution_common.md R143; 48_vliw.md R226) and every flag computation of R146 and
41_alu.md R165 to R167.
-/

namespace Sys2Proof.Machine

open Sys2Proof

/-- Whether a condition holds on the flags (R143). -/
def condHolds (cnd : Cond) (f : Flags) : Bool :=
  match cnd with
  | .always => true
  | .lt => f.n
  | .z => f.z
  | .nz => !f.z
  | .gt => !f.n && !f.z
  | .ge => !f.n
  | .c => f.c
  | .v => f.v

/-- Whether a VLIW condition holds on the flags (R226). -/
def cond2Holds (cnd : Cond2) (f : Flags) : Bool :=
  match cnd with
  | .always => true
  | .lt => f.n
  | .z => f.z
  | .nz => !f.z

/-- An instruction's result and the four flags it would set. -/
structure AluResult where
  res : Word
  flags : Flags
  deriving DecidableEq, Repr

/-- Z and N from the result, C and V as given (R31, R33, R146). -/
def resultFlags (res : Word) (c v : Bool) : Flags := ⟨res == 0#32, c, res.msb, v⟩

/-- A result whose instruction clears C and V (R146; PRESUMED by the spec's D8, entry 13). -/
def logicResult (res : Word) : AluResult := ⟨res, resultFlags res false false⟩

/-- Subtraction: C is the borrow, V the signed overflow (R146, R160, R172). -/
def subResult (a b : Word) : AluResult :=
  ⟨a - b, resultFlags (a - b) (a.ult b) (a.msb != b.msb && (a - b).msb != a.msb)⟩

/-- Addition: C is the carry out of bit 31, V the signed overflow (R146, R162). -/
def addResult (a b : Word) : AluResult :=
  ⟨a + b, resultFlags (a + b) (decide (2 ^ 32 ≤ a.toNat + b.toNat)) (a.msb == b.msb && (a + b).msb != a.msb)⟩

/-- The last bit a right shift by `b` (1 to 31) drops: `a[b-1]` (R165, R167). -/
def lastOutRight (a b : Word) : Bool := a.getLsbD (b.toNat - 1)

/-- Logical shift right by the whole of `b` (R165; counts of 32 and more and V are the spec's D10, D11, entry 13). -/
def lsrResult (a b : Word) : AluResult :=
  if b.toNat = 0 then ⟨a, resultFlags a false false⟩
  else if b.toNat < 32 then
    ⟨a >>> b.toNat, resultFlags (a >>> b.toNat) (lastOutRight a b) ((a >>> b.toNat).msb != a.msb)⟩
  else if b.toNat = 32 then ⟨0#32, resultFlags 0#32 a.msb a.msb⟩
  else ⟨0#32, resultFlags 0#32 false a.msb⟩

/-- Logical shift left by the whole of `b` (R166; counts of 32 and more and V as above). -/
def lslResult (a b : Word) : AluResult :=
  if b.toNat = 0 then ⟨a, resultFlags a false false⟩
  else if b.toNat < 32 then
    ⟨a <<< b.toNat, resultFlags (a <<< b.toNat) (a.getLsbD (32 - b.toNat)) ((a <<< b.toNat).msb != a.msb)⟩
  else if b.toNat = 32 then ⟨0#32, resultFlags 0#32 (a.getLsbD 0) a.msb⟩
  else ⟨0#32, resultFlags 0#32 false a.msb⟩

/-- 32 copies of the sign bit of `a`. -/
def signWord (a : Word) : Word := if a.msb then 0xffffffff#32 else 0#32

/-- Arithmetic shift right by the whole of `b` (R167; counts of 32 and more and V as above). -/
def asrResult (a b : Word) : AluResult :=
  if b.toNat = 0 then ⟨a, resultFlags a false false⟩
  else if b.toNat < 32 then
    ⟨a.sshiftRight b.toNat, resultFlags (a.sshiftRight b.toNat) (lastOutRight a b) false⟩
  else ⟨signWord a, resultFlags (signWord a) a.msb false⟩

/-- How many bits of a word are 1, counting bits below `n` (R170). -/
def onesBelow (w : Word) : Nat → Nat
  | 0 => 0
  | n + 1 => onesBelow w n + (w.getLsbD n).toNat

/-- Population count of operand B (R170, entry 14). -/
def popcResult (b : Word) : AluResult := logicResult (BitVec.ofNat 32 (onesBelow b 32))

/-- Rotation left by `b` mod 32 (R171). -/
def rolResult (a b : Word) : AluResult := logicResult (a.rotateLeft (b.toNat % 32))

/-- The low word of the product (43_multiply.md R185). -/
def mpyResult (a b : Word) : AluResult := logicResult (a * b)

/-- The high word of the unsigned product (R186). -/
def mpyuhiResult (a b : Word) : AluResult :=
  logicResult ((a.zeroExtend 64 * b.zeroExtend 64).extractLsb' 32 32)

/-- The high word of the signed product (R187). -/
def mpyshiResult (a b : Word) : AluResult :=
  logicResult ((a.signExtend 64 * b.signExtend 64).extractLsb' 32 32)

/-- A quotient's flags: Z and N from it, C and V as drawn (R146; 44_divide.md R190, R191). -/
def divResult (q : Word) (c v : Bool) : AluResult := ⟨q, resultFlags q c v⟩

/-- Bits 31..16 of `a` over bits 15..0 of `b` (41_alu.md R168). -/
def lowReplaced (a b : Word) : Word := (a &&& 0xffff0000#32) ||| (b &&& 0x0000ffff#32)

/-- The bit-reversed word (R169). -/
def bitReversed (b : Word) : Word := b.reverse

end Sys2Proof.Machine
end

