-- ==== Sys2Proof/Machine/Operands.lean ====
section
/-!
DEFINITION. What an instruction reads: registers, the status register, operand B in every form
(40_execution_common.md R141; 10_state.md R21, R27, R47; 30_encoding.md R104, R109; 48_vliw.md R223).
-/

namespace Sys2Proof.Machine

open Sys2Proof

/-- One of the two sets: the user set for true (R20). -/
def State.set (s : State) (user : Bool) : RegSet := if user then s.usr else s.sup

/-- The active set (R21). -/
def State.active (s : State) : RegSet := s.set s.gie

/-- `s` with one of the two sets replaced. -/
def State.withSet (s : State) (user : Bool) (rs : RegSet) : State := if user then { s with usr := rs } else { s with sup := rs }

/-- `s` with the active set replaced. -/
def State.withActive (s : State) (rs : RegSet) : State := s.withSet s.gie rs

/-- Bits 3..0 of a CC value: V, N, C, Z (R47). -/
def Flags.bits (f : Flags) : BitVec 4 :=
  BitVec.ofBool f.v ++ BitVec.ofBool f.n ++ BitVec.ofBool f.c ++ BitVec.ofBool f.z

/-- The flags that bits 3..0 of a word stand for (R48). -/
def flagsOfWord (w : Word) : Flags := ⟨w.getLsbD 0, w.getLsbD 1, w.getLsbD 2, w.getLsbD 3⟩

/-- The value read from CC of one set (R47). Bits 7 to 5 are BREAK_EN, 0, 0 in sCC and UBREAK, STEP, 1 in uCC. -/
def State.readCC (s : State) (user : Bool) : Word :=
  s.cfg.ccUpper ++ 0#2 ++ BitVec.ofBool (s.set user).phase ++ BitVec.ofBool (s.set user).fpErr
    ++ BitVec.ofBool (s.set user).divErr ++ BitVec.ofBool (s.set user).busErr ++ BitVec.ofBool s.trap
    ++ BitVec.ofBool (s.set user).ill ++ BitVec.ofBool (if user then s.ubreak else s.breakEn)
    ++ BitVec.ofBool (user && s.stepBit) ++ BitVec.ofBool user ++ BitVec.ofBool s.sleep ++ (s.set user).flags.bits

/-- A register of one set as stored; CC is assembled (R20, R47). -/
def State.readIn (s : State) (user : Bool) (r : Reg) : Word :=
  match r with
  | .gpr n => (s.set user).r[n]
  | .cc => s.readCC user
  | .pc => (s.set user).pc

/-- A register of the active set. While an instruction at `A` executes the active PC already holds `A + 1`, so that is
what PC reads as (R27). -/
def State.readReg (s : State) (r : Reg) : Word := s.readIn s.gie r

/-- Operand B: an 18-bit immediate, or a register plus a 14-bit offset, sign-extended (R104, R109). -/
def State.opB (s : State) (b : OpB) : Word :=
  match b with
  | .imm i => i.signExtend 32
  | .reg br off => s.readReg br + off.signExtend 32

/-- Operand B of a VLIW half: a 4-bit immediate or a register (R223). Of a LOD or STO half the immediate is an absolute address
in -8..7: 48_vliw.md R224 lets a model accept that reading or refuse the word (DESIGN CHOICE, entry 42). -/
def State.halfB (s : State) (b : HalfB) : Word :=
  match b with
  | .imm i => i.signExtend 32
  | .reg br => s.readReg br

end Sys2Proof.Machine
end

