-- ==== Sys2Proof/Machine/Ops.lean ====
section
/-!
DEFINITION. What an instruction does to registers and modes: write-back (40_execution_common.md R145), writes to CC
(10_state.md R48), taking an exception (60_exceptions.md R320 to R331) and returning from one (R340), and the frame in
which every instruction runs (R140 items 6 to 8).
-/

namespace Sys2Proof.Machine

open Sys2Proof

/-! ## Changing mode -/

/-- The common switch to supervisor mode (R320, R321): the user PC is saved, GIE and SLEEP fall, a locked sequence ends;
PHASE of the user set says whether a first half raised the exception (48_vliw.md R231). -/
def State.enterSupervisor (s : State) (saved : Word) (phase : Bool) : State :=
  { s with
    usr := { s.usr with pc := saved, phase := phase }
    gie := false
    sleep := false
    lockLeft := 0 }

/-- The exceptions an instruction or its bus access raises (R310). -/
inductive Cause
  | illegal
  | busError
  | divZero
  | break_
  deriving DecidableEq, Repr

/-- The cause bit of a set (R310); a break sets none here, UBREAK is one bit for the CPU. -/
def RegSet.mark (rs : RegSet) (c : Cause) : RegSet :=
  match c with
  | .illegal => { rs with ill := true }
  | .busError => { rs with busErr := true }
  | .divZero => { rs with divErr := true }
  | .break_ => rs

/-- Taking an exception (R324 to R328, R330, R331). In user mode: the cause bit of uCC and the switch to supervisor mode; a
break halts instead where BREAK_EN is set. In supervisor mode: the cause bit of sCC and HALTED. `saved` is the PC kept for
the mode that met it. -/
def State.takeException (s : State) (c : Cause) (saved : Word) (phase : Bool) : State :=
  if s.gie then
    if c = .break_ then
      if s.breakEn then
        { s with usr := { s.usr with pc := saved, phase := phase }, halted := true, lockLeft := 0 }
      else ({ s with ubreak := true } : State).enterSupervisor saved phase
    else ({ s with usr := s.usr.mark c } : State).enterSupervisor saved phase
  else
    { s with sup := { s.sup.mark c with pc := saved, phase := phase }, halted := true, lockLeft := 0 }

/-- Return to userspace (R340): the user set's cause bits fall and GIE rises. -/
def State.returnToUser (s : State) : State :=
  { s with
    usr := { s.usr with ill := false, busErr := false, divErr := false, fpErr := false, phase := false }
    trap := false
    ubreak := false
    gie := true }

/-- Asleep in supervisor mode is halted (10_state.md R50; 60 R351); every halt ends a locked sequence (entry 30). -/
def State.haltIfAsleep (s : State) : State :=
  if !s.gie && s.sleep && !s.halted then { s with halted := true, lockLeft := 0, sup := { s.sup with phase := false } }
  else s

/-! ## Writing CC (10_state.md R48) -/

/-- A user-mode instruction writes uCC: the flags; with bit 5 set SLEEP; with bit 5 clear the trap of R322, the user PC
being past the instruction. -/
def State.userWriteCC (s : State) (v : Word) : State :=
  let t := { s with usr := { s.usr with flags := flagsOfWord v } }
  if v.getLsbD 5 then { t with sleep := v.getLsbD 4 }
  else ({ t with trap := true } : State).enterSupervisor t.usr.pc false

/-- A supervisor-mode instruction, or the debug port, writes sCC; bit 5 set returns to user mode. -/
def State.supWriteSCC (s : State) (v : Word) : State :=
  let t := { s with
    sup := { s.sup with
      flags := flagsOfWord v
      ill := s.sup.ill && v.getLsbD 8
      busErr := s.sup.busErr && v.getLsbD 10
      divErr := s.sup.divErr && v.getLsbD 11 }
    sleep := v.getLsbD 4
    stepBit := v.getLsbD 6
    breakEn := v.getLsbD 7
    icache := if v.getLsbD 14 then [] else s.icache }
  if v.getLsbD 5 then t.returnToUser else t

/-- A supervisor-mode MOV, or the debug port, writes uCC. -/
def State.supWriteUCC (s : State) (v : Word) : State :=
  { s with
    usr := { s.usr with
      flags := flagsOfWord v
      busErr := s.usr.busErr && v.getLsbD 10
      divErr := s.usr.divErr && v.getLsbD 11 }
    sleep := v.getLsbD 4
    stepBit := v.getLsbD 6
    ubreak := s.ubreak && v.getLsbD 7 }

/-! ## Write-back (40_execution_common.md R145; 42_move_ldi.md R180) -/

/-- Write a general register of one set. -/
def State.writeGpr (s : State) (user : Bool) (n : Fin 14) (v : Word) : State :=
  s.withSet user { s.set user with r := (s.set user).r.set n v }

/-- Write the program counter of one set. -/
def State.writePc (s : State) (user : Bool) (v : Word) : State := s.withSet user { s.set user with pc := v }

/-- Write back to a register of the active set: a plain store, a jump (R29), or the CC write of R48. -/
def State.writeReg (s : State) (r : Reg) (v : Word) : State :=
  match r with
  | .gpr n => s.writeGpr s.gie n v
  | .pc => s.writePc s.gie v
  | .cc => if s.gie then s.userWriteCC v else (s.supWriteSCC v).haltIfAsleep

/-- Write back to a register of the named set, as MOV does (R180): the active set as above; the user set from supervisor
mode as a plain store, or the third column of R48. -/
def State.writeIn (s : State) (user : Bool) (r : Reg) (v : Word) : State :=
  if user = s.gie then s.writeReg r v
  else
    match r with
    | .gpr n => s.writeGpr user n v
    | .pc => s.writePc user v
    | .cc => (s.supWriteUCC v).haltIfAsleep

/-- Set the flags of the active set. -/
def State.setFlags (s : State) (f : Flags) : State := s.withActive { s.active with flags := f }

/-- Write a result back, and its flags where the instruction is unconditional and its destination neither PC nor CC
(R146 to R148). -/
def State.finish (s : State) (conditional : Bool) (dr : Reg) (r : AluResult) : State :=
  if dr.isGpr && !conditional then (s.writeReg dr r.res).setFlags r.flags else s.writeReg dr r.res

/-! ## The frame of an instruction (R140 items 6 to 8) -/

/-- Where an instruction stands: a word of its own, or a half of a VLIW word (48_vliw.md R228). -/
inductive Slot
  | whole
  | first
  | second
  deriving DecidableEq, Repr

/-- What an instruction's body is told: the word's address, its place in the word, whether a condition governs it. -/
structure Ctx where
  addr : Word
  slot : Slot
  conditional : Bool
  deriving DecidableEq, Repr

/-- What executing a body leaves: it completed, or it raised an exception, which has been taken. -/
inductive Ran
  | done (s : State)
  | raised (s : State)
  deriving DecidableEq, Repr

/-- The state a body leaves. -/
def Ran.state : Ran → State
  | .done s => s
  | .raised s => s

/-- The active PC moved past the word: what executes reads PC as `A + 1` and falls through to there (R27, R28). -/
def State.advance (s : State) : State := s.withActive { s.active with pc := s.active.pc + 1#32 }

/-- An instruction word of its own: illegal encodings first, whatever the condition (R114, R144); then the body, if the
condition holds on the flags (R143); a false condition only advances the PC (R144). -/
def State.runWord (s : State) (legal : Bool) (cnd : Cond) (body : Ctx → State → Ran) : State :=
  if legal then
    if condHolds cnd s.active.flags then (body ⟨s.active.pc, .whole, decide (cnd ≠ .always)⟩ s.advance).state
    else s.advance
  else s.takeException .illegal s.active.pc false

end Sys2Proof.Machine
end

