-- ==== Sys2Proof/Machine/Agents.lean ====
section
/-!
DEFINITION. What acts beside the CPU's instructions: reset (70_reset_and_hazards.md R400 to R404), the clock
(60_exceptions.md R355 to R366), the cache's own doings (20_memory.md R87, R88) and the host at the debug port (60 R370 to
R378).
-/

namespace Sys2Proof.Machine

open Sys2Proof

/-! ## Reset -/

/-- The next free words: what the spec leaves unspecified after a reset (R404, entry 6). -/
def State.freeAt (s : State) (k : Nat) : Word := Config.freeWord (s.draws + k)

/-- The DMA controller after a reset: idle, bit 30 clear, its other fields unspecified (R404). The transfer buffer is emptied, so
that bits 26..16 of DMACTRL read 0: R404 leaves them unspecified too (DESIGN CHOICE, entry 6). -/
def State.resetDma (s : State) : Dma where
  len := s.freeAt 0
  src := s.freeAt 1
  dst := s.freeAt 2
  noIncSrc := (s.freeAt 3).getLsbD 29
  noIncDst := (s.freeAt 3).getLsbD 28
  trigger := (s.freeAt 3).getLsbD 15
  line := (s.freeAt 3).extractLsb' 10 5
  chunk := (s.freeAt 3).extractLsb' 0 10
  active := false
  err := false
  remaining := s.freeAt 4
  curSrc := s.freeAt 5
  curDst := s.freeAt 6
  buffer := []

/-- The peripherals after a reset (R404): controllers cleared, timers stopped, Jiffies not armed, DMA idle; the Jiffies
counter and the accounting counters go on. -/
def State.resetPeriph (s : State) : Periph where
  pic := Pic.cleared
  ctric := Pic.cleared
  tmra := Timer.stopped
  tmrb := Timer.stopped
  tmrc := Timer.stopped
  wdt := Timer.stopped
  wbu := s.freeAt 7
  jiff := { s.per.jiff with armed := false }
  counters := s.per.counters
  dma := s.resetDma

/-- A reset of a running machine (R400, R401). A store in flight has reached memory or not, as the environment chose. -/
def State.warmReset (s : State) : State :=
  let t := if s.cur.drain then s.drainPosted.2 else s
  { t with
    sup := { t.sup with
      pc := t.cfg.resetAddress, flags := Flags.clear, ill := false, busErr := false, divErr := false, fpErr := false,
      phase := false }
    usr := { t.usr with ill := false, busErr := false, divErr := false, fpErr := false, phase := false }
    gie := false
    sleep := false
    stepBit := false
    breakEn := false
    ubreak := false
    trap := false
    halted := t.cfg.startHalted
    lockLeft := 0
    icache := []
    posted := none
    storeErr := false
    irqSeen := false
    per := t.resetPeriph
    draws := t.draws + 8 }

/-! ## The clock -/

/-- One clock of the ZipSystem's peripherals; the watchdog's expiry resets the machine (R361). The ZipBones has none
(R392). -/
def State.clock (s : State) : State :=
  match s.cfg.container with
  | .zipSystem =>
    let r := s.per.clock s.cfg s.gie s.extLines
    let t := { s with per := r.1 }
    if r.2 then t.warmReset else t
  | .zipBones => s

/-- So many clocks. -/
def State.clocks : Nat → State → State
  | 0, s => s
  | n + 1, s => State.clocks n s.clock

/-- Stalls and issued instructions counted (R365); `user` is the mode they belong to. -/
def State.countEvents (s : State) (user : Bool) (memStalls fetchStalls insns : Nat) : State :=
  match s.cfg.container with
  | .zipSystem => { s with per := s.per.count s.cfg (counterEvents user 0 memStalls fetchStalls insns) }
  | .zipBones => s

/-- The CPU's interrupt input: the primary controller's output, or the ZipBones' one wire (10_state.md R55; 60 R311). -/
def State.irq (s : State) : Bool :=
  match s.cfg.container with
  | .zipSystem => s.per.pic.any
  | .zipBones => s.extLines.getLsbD 0

/-! ## The instruction cache's own doings (20_memory.md R87, R88) -/

/-- Keep a word in the cache, if there is one and it has room (R51, R88). -/
def State.keepInCache (s : State) (a w : Word) : State :=
  if s.cfg.pipelined && decide (s.icache.length < 2 ^ s.cfg.lgicache) then
    { s with icache := Memory.write s.icache a.toNat w }
  else s

/-- The prefetch reads a word ahead of need, whatever stands at its address (R75, R87), and the cache may keep it (R88); words
already cached stay as they are. A bus error on it is no exception (R87). -/
def State.prefetch (s : State) (a : Word) : State :=
  if (Memory.read s.icache a.toNat).isNone then
    match s.busRead a with
    | (some w, t) => t.keepInCache a w
    | (none, t) => t
  else s

/-- The cache drops a word (R88). -/
def State.evict (s : State) (a : Word) : State := { s with icache := Memory.drop s.icache a.toNat }

/-! ## The debug port (60 R370 to R378) -/

/-- The store in flight completes while the CPU is stopped (20_memory.md R82; R372). Nothing of its bus error happens while
the CPU is held (R314 items 2 and 3): it is kept, and delivered when the CPU is released (entry 9). -/
def State.landHeld (s : State) : State :=
  match s.drainPosted with
  | (true, t) => t
  | (false, t) => { t with storeErr := true }

/-- The debug port halts the CPU at the boundary, the store in flight completed; mode, SLEEP and both PCs stay (R372). A hold
ends a locked sequence: the source does not say, and the bus is then free while the CPU is held (DESIGN CHOICE, entry 30). -/
def State.debugHalt (s : State) : State :=
  if s.halted then s
  else { (s.withActive { s.active with phase := false }).landHeld with halted := true, lockLeft := 0 }

/-- ZIPCTRL as read (R371): external wires, GIE, SLEEP, HALT, busy, interrupt pending, the register address; the write-only bit
11 reads 0. Bits 8 and 6, which the table has as R/W, read 0 too: R371 does not say what they read as (DESIGN CHOICE, entry
26). -/
def State.readCtrl (s : State) : Word :=
  s.extLines.extractLsb' 0 18 ++ BitVec.ofBool s.gie ++ BitVec.ofBool s.sleep ++ 0#1 ++ BitVec.ofBool s.halted
    ++ BitVec.ofBool (!s.halted) ++ 0#1 ++ BitVec.ofBool s.irq ++ 0#1 ++ s.dbgAddr

/-- `o_ext_int`, "CPU Halted interrupt" (60_exceptions.md R373, R391). -/
def State.extInt (s : State) : Bool := s.halted

/-- The peripheral offset a debug register address names, if this build has it (R376). -/
def debugPeriph (cfg : Config) (n : BitVec 6) : Option (Fin 20) :=
  if h : 32 ≤ n.toNat ∧ n.toNat < 52 then
    if periphPresent cfg ⟨n.toNat - 32, by omega⟩ then some ⟨n.toNat - 32, by omega⟩ else none
  else none

/-- A read of ZIPDATA (R374 to R377); an unassigned address answers a free value (entry 26). -/
def State.readData (s : State) : State :=
  if s.dbgAddr.toNat < 32 then
    { s with dbgOut := s.readIn (s.dbgAddr.getLsbD 4) (decodeReg (s.dbgAddr.extractLsb' 0 4)) }
  else
    match debugPeriph s.cfg s.dbgAddr with
    | some k => { s with dbgOut := s.per.read s.cfg k }
    | none => { s.drawWord.2 with dbgOut := s.drawWord.1 }

/-- A write of ZIPDATA while the CPU is halted (R374, R377); an unassigned address takes nothing. -/
def State.writeData (s : State) (w : Word) : State :=
  if s.dbgAddr.toNat < 32 then
    match decodeReg (s.dbgAddr.extractLsb' 0 4) with
    | .gpr n => s.writeGpr (s.dbgAddr.getLsbD 4) n w
    | .pc => s.writePc (s.dbgAddr.getLsbD 4) w
    | .cc => if s.dbgAddr.getLsbD 4 then s.supWriteUCC w else s.supWriteSCC w
  else
    match debugPeriph s.cfg s.dbgAddr with
    | some k => { s with per := s.per.write s.cfg s.extLines k w }
    | none => s

/-- A write of ZIPCTRL (R372), and whether it commands a single step. Address, reset, clear cache, then step, halt or
release: after a reset too HALTED becomes bit 10, whatever START_HALTED made of it (entry 26). A release or a step leaves PHASE of
the set that stopped as it is: no rule clears it, though C13 of 90_conflicts.md has no running program see it as 1 (48_vliw.md R231; DESIGN CHOICE, entry 18). -/
def State.writeCtrl (s : State) (w : Word) : State × Bool :=
  let t := { s with dbgAddr := w.extractLsb' 0 6 }
  let u := if w.getLsbD 6 then t.warmReset else t
  let v := if w.getLsbD 11 then { u with icache := [] } else u
  if w.getLsbD 8 then ({ v with halted := false }, true)
  else if w.getLsbD 10 then (v.debugHalt, false)
  else ({ v with halted := false }, false)

/-- Whether the CPU is inside a locked sequence that goes on (20_memory.md R93; 45 R197): neither held nor waiting in it. -/
def State.inLock (s : State) : Bool := s.lockLeft != 0 && !s.halted && !s.sleep

/-- Whether the access commands a reset, which nothing defers (70_reset_and_hazards.md R400). -/
def HostAccess.resets (h : HostAccess) : Bool :=
  match h with
  | .writeCtrl w => w.getLsbD 6
  | .readCtrl => false
  | .writeData _ => false
  | .readData => false

/-- The host's access at this step (R378), and whether it commands a single step; none: the access that R375 forbids. Inside a
locked sequence no access is made but a reset (20_memory.md R93, 70 R400; entry 26). -/
def State.hostAccess (s : State) : Option (State × Bool) :=
  match s.cur.host with
  | none => some (s, false)
  | some h =>
    if s.inLock && !h.resets then some (s, false)
    else
      match h with
      | .writeCtrl w => some (s.writeCtrl w)
      | .readCtrl => some ({ s with dbgOut := s.readCtrl }, false)
      | .writeData w => if s.halted then some (s.writeData w, false) else none
      | .readData => some (s.readData, false)

/-! ## All of it, in the order of one step (entry 8) -/

/-- Take the environment's next choice. -/
def State.loadEnv (s : State) : State :=
  match s.env with
  | [] => { s with cur := Env.quiet }
  | e :: rest =>
    { s with cur := e, env := rest, ext := e.ext.getD s.ext, dmaWires := e.dmaWires.getD s.dmaWires }

/-- The interrupt input is looked at (R312): high and not yet seen in user mode, it is seen where the environment says so; high
in supervisor mode, it is seen at the return, before a user instruction (R341); seen, it stays seen until it falls (entry
29). -/
def State.look (s : State) : State := { s with irqSeen := s.irq && (s.irqSeen || s.cur.seeIrq || !s.gie) }

/-- Other masters, the cache, the clock, stalls, the DMA controller. -/
def State.agents (s : State) : State :=
  let a := s.cur.masters.foldl State.masterWrite s
  let b := a.cur.evict.foldl State.evict a
  let c := b.cur.prefetch.foldl State.prefetch b
  let d := State.clocks (c.cur.ticks + 1) c
  let e := d.countEvents d.gie d.cur.memStalls d.cur.fetchStalls 0
  State.dmaMoves e.cur.dmaMoves e

end Sys2Proof.Machine
end

