-- ==== Sys2Proof/Machine/Unbuilt.lean ====
section
/-!
DEFINITION. Opcodes that no build has: floating point (46_floating_point.md R200), the reserved opcodes (R201) and the
undefined part of the NOOP space (45_noop_break_lock.md R198). Each raises IllegalInstruction, whatever its condition
(30_encoding.md R114), which is taken.
-/

namespace Sys2Proof.Machine

open Sys2Proof

/-- An undefined instruction at the active PC (60_exceptions.md R324). -/
def State.undefinedHere (s : State) : State := s.takeException .illegal s.active.pc false

/-- FPADD (46_floating_point.md R200). -/
def execFpadd (_dr : Reg) (_cnd : Cond) (_b : OpB) (s : State) : Host.Outcome State Fault Refusal :=
  .next s.undefinedHere

/-- FPSUB (46_floating_point.md R200). -/
def execFpsub (_dr : Reg) (_cnd : Cond) (_b : OpB) (s : State) : Host.Outcome State Fault Refusal :=
  .next s.undefinedHere

/-- FPMPY (46_floating_point.md R200). -/
def execFpmpy (_dr : Reg) (_cnd : Cond) (_b : OpB) (s : State) : Host.Outcome State Fault Refusal :=
  .next s.undefinedHere

/-- FPDIV (46_floating_point.md R200). -/
def execFpdiv (_dr : Reg) (_cnd : Cond) (_b : OpB) (s : State) : Host.Outcome State Fault Refusal :=
  .next s.undefinedHere

/-- FPI2F (46_floating_point.md R200). -/
def execFpi2f (_dr : Reg) (_cnd : Cond) (_b : OpB) (s : State) : Host.Outcome State Fault Refusal :=
  .next s.undefinedHere

/-- FPF2I (46_floating_point.md R200). -/
def execFpf2i (_dr : Reg) (_cnd : Cond) (_b : OpB) (s : State) : Host.Outcome State Fault Refusal :=
  .next s.undefinedHere

/-- Opcode 5'h1e (46_floating_point.md R201). -/
def execReserved1e (_dr : Reg) (_cnd : Cond) (_b : OpB) (s : State) : Host.Outcome State Fault Refusal :=
  .next s.undefinedHere

/-- Opcode 5'h1f (46_floating_point.md R201). -/
def execReserved1f (_dr : Reg) (_cnd : Cond) (_b : OpB) (s : State) : Host.Outcome State Fault Refusal :=
  .next s.undefinedHere

/-- NOOP-space selector 3 (45_noop_break_lock.md R198). -/
def execIllegalNoopgrp3 (_bit27 : Bool) (_payload : BitVec 22) (s : State) : Host.Outcome State Fault Refusal :=
  .next s.undefinedHere

/-- NOOP-space selector 4 (45_noop_break_lock.md R198). -/
def execIllegalNoopgrp4 (_bit27 : Bool) (_payload : BitVec 22) (s : State) : Host.Outcome State Fault Refusal :=
  .next s.undefinedHere

/-- NOOP-space selector 5 (45_noop_break_lock.md R198). -/
def execIllegalNoopgrp5 (_bit27 : Bool) (_payload : BitVec 22) (s : State) : Host.Outcome State Fault Refusal :=
  .next s.undefinedHere

/-- NOOP-space selector 6 (45_noop_break_lock.md R198). -/
def execIllegalNoopgrp6 (_bit27 : Bool) (_payload : BitVec 22) (s : State) : Host.Outcome State Fault Refusal :=
  .next s.undefinedHere

/-- NOOP-space selector 7 (45_noop_break_lock.md R198). -/
def execIllegalNoopgrp7 (_bit27 : Bool) (_payload : BitVec 22) (s : State) : Host.Outcome State Fault Refusal :=
  .next s.undefinedHere

end Sys2Proof.Machine
end

