-- ==== Sys2Proof/Machine/Alu.lean ====
section
/-!
DEFINITION. The ALU instructions (41_alu.md R160 to R173). Each has a body, which a VLIW half runs as well, and its meaning
as a word of its own.
-/

namespace Sys2Proof.Machine

open Sys2Proof

/-- SUB executed: `Ra - OpB` (41_alu.md R160). -/
def bodySub (dr : Reg) (b : Word) (ctx : Ctx) (s : State) : Ran :=
  .done (s.finish ctx.conditional dr (subResult (s.readReg dr) b))

/-- SUB (41_alu.md R160). -/
def execSub (dr : Reg) (cnd : Cond) (b : OpB) (s : State) : Host.Outcome State Fault Refusal :=
  .next (s.runWord true cnd fun ctx t => bodySub dr (t.opB b) ctx t)

/-- AND executed: bitwise and (41_alu.md R161). -/
def bodyAnd (dr : Reg) (b : Word) (ctx : Ctx) (s : State) : Ran :=
  .done (s.finish ctx.conditional dr (logicResult (s.readReg dr &&& b)))

/-- AND (41_alu.md R161). -/
def execAnd (dr : Reg) (cnd : Cond) (b : OpB) (s : State) : Host.Outcome State Fault Refusal :=
  .next (s.runWord true cnd fun ctx t => bodyAnd dr (t.opB b) ctx t)

/-- ADD executed: `Ra + OpB`; with destination PC the relative branch (41_alu.md R162). -/
def bodyAdd (dr : Reg) (b : Word) (ctx : Ctx) (s : State) : Ran :=
  .done (s.finish ctx.conditional dr (addResult (s.readReg dr) b))

/-- ADD (41_alu.md R162). -/
def execAdd (dr : Reg) (cnd : Cond) (b : OpB) (s : State) : Host.Outcome State Fault Refusal :=
  .next (s.runWord true cnd fun ctx t => bodyAdd dr (t.opB b) ctx t)

/-- OR executed: bitwise or (41_alu.md R163). -/
def bodyOr (dr : Reg) (b : Word) (ctx : Ctx) (s : State) : Ran :=
  .done (s.finish ctx.conditional dr (logicResult (s.readReg dr ||| b)))

/-- OR (41_alu.md R163). -/
def execOr (dr : Reg) (cnd : Cond) (b : OpB) (s : State) : Host.Outcome State Fault Refusal :=
  .next (s.runWord true cnd fun ctx t => bodyOr dr (t.opB b) ctx t)

/-- XOR executed: bitwise exclusive or (41_alu.md R164). -/
def bodyXor (dr : Reg) (b : Word) (ctx : Ctx) (s : State) : Ran :=
  .done (s.finish ctx.conditional dr (logicResult (s.readReg dr ^^^ b)))

/-- XOR (41_alu.md R164). -/
def execXor (dr : Reg) (cnd : Cond) (b : OpB) (s : State) : Host.Outcome State Fault Refusal :=
  .next (s.runWord true cnd fun ctx t => bodyXor dr (t.opB b) ctx t)

/-- LSR executed: logical shift right (41_alu.md R165). -/
def bodyLsr (dr : Reg) (b : Word) (ctx : Ctx) (s : State) : Ran :=
  .done (s.finish ctx.conditional dr (lsrResult (s.readReg dr) b))

/-- LSR (41_alu.md R165). -/
def execLsr (dr : Reg) (cnd : Cond) (b : OpB) (s : State) : Host.Outcome State Fault Refusal :=
  .next (s.runWord true cnd fun ctx t => bodyLsr dr (t.opB b) ctx t)

/-- LSL executed: logical shift left (41_alu.md R166). -/
def bodyLsl (dr : Reg) (b : Word) (ctx : Ctx) (s : State) : Ran :=
  .done (s.finish ctx.conditional dr (lslResult (s.readReg dr) b))

/-- LSL (41_alu.md R166). -/
def execLsl (dr : Reg) (cnd : Cond) (b : OpB) (s : State) : Host.Outcome State Fault Refusal :=
  .next (s.runWord true cnd fun ctx t => bodyLsl dr (t.opB b) ctx t)

/-- ASR executed: arithmetic shift right (41_alu.md R167). -/
def bodyAsr (dr : Reg) (b : Word) (ctx : Ctx) (s : State) : Ran :=
  .done (s.finish ctx.conditional dr (asrResult (s.readReg dr) b))

/-- ASR (41_alu.md R167). -/
def execAsr (dr : Reg) (cnd : Cond) (b : OpB) (s : State) : Host.Outcome State Fault Refusal :=
  .next (s.runWord true cnd fun ctx t => bodyAsr dr (t.opB b) ctx t)

/-- LDILO executed: the low half of `Ra` replaced, no flags (41_alu.md R168). -/
def bodyLdilo (dr : Reg) (b : Word) (_ctx : Ctx) (s : State) : Ran :=
  .done (s.writeReg dr (lowReplaced (s.readReg dr) b))

/-- LDILO (41_alu.md R168). -/
def execLdilo (dr : Reg) (cnd : Cond) (b : OpB) (s : State) : Host.Outcome State Fault Refusal :=
  .next (s.runWord true cnd fun ctx t => bodyLdilo dr (t.opB b) ctx t)

/-- BREV executed: operand B with its bits in the opposite order, no flags (41_alu.md R169). -/
def bodyBrev (dr : Reg) (b : Word) (_ctx : Ctx) (s : State) : Ran :=
  .done (s.writeReg dr (bitReversed b))

/-- BREV (41_alu.md R169). -/
def execBrev (dr : Reg) (cnd : Cond) (b : OpB) (s : State) : Host.Outcome State Fault Refusal :=
  .next (s.runWord true cnd fun ctx t => bodyBrev dr (t.opB b) ctx t)

/-- POPC executed: how many bits of operand B are 1 (41_alu.md R170). -/
def bodyPopc (dr : Reg) (b : Word) (ctx : Ctx) (s : State) : Ran :=
  .done (s.finish ctx.conditional dr (popcResult b))

/-- POPC (41_alu.md R170). -/
def execPopc (dr : Reg) (cnd : Cond) (b : OpB) (s : State) : Host.Outcome State Fault Refusal :=
  .next (s.runWord true cnd fun ctx t => bodyPopc dr (t.opB b) ctx t)

/-- ROL executed: rotation left (41_alu.md R171). -/
def bodyRol (dr : Reg) (b : Word) (ctx : Ctx) (s : State) : Ran :=
  .done (s.finish ctx.conditional dr (rolResult (s.readReg dr) b))

/-- ROL (41_alu.md R171). -/
def execRol (dr : Reg) (cnd : Cond) (b : OpB) (s : State) : Host.Outcome State Fault Refusal :=
  .next (s.runWord true cnd fun ctx t => bodyRol dr (t.opB b) ctx t)

/-- CMP executed: the flags of `Ra - OpB`, whatever the condition field and `DR` (41_alu.md R172). -/
def bodyCmp (dr : Reg) (b : Word) (_ctx : Ctx) (s : State) : Ran :=
  .done (s.setFlags (subResult (s.readReg dr) b).flags)

/-- CMP (41_alu.md R172). -/
def execCmp (dr : Reg) (cnd : Cond) (b : OpB) (s : State) : Host.Outcome State Fault Refusal :=
  .next (s.runWord true cnd fun ctx t => bodyCmp dr (t.opB b) ctx t)

/-- TST executed: the flags of `Ra & OpB`, whatever the condition field and `DR` (41_alu.md R173). -/
def bodyTst (dr : Reg) (b : Word) (_ctx : Ctx) (s : State) : Ran :=
  .done (s.setFlags (logicResult (s.readReg dr &&& b)).flags)

/-- TST (41_alu.md R173). -/
def execTst (dr : Reg) (cnd : Cond) (b : OpB) (s : State) : Host.Outcome State Fault Refusal :=
  .next (s.runWord true cnd fun ctx t => bodyTst dr (t.opB b) ctx t)

end Sys2Proof.Machine
end

