-- ==== Sys2Proof/Machine/Divide.lean ====
section
/-!
DEFINITION. The divides (44_divide.md R190, R191): a zero denominator raises DivideByZero (60_exceptions.md R326); C and V
afterwards are free values (entry 12). Illegal where the divider is not built (30_encoding.md R114).
-/

namespace Sys2Proof.Machine

open Sys2Proof

/-- Write a quotient back with its flags, C and V being the next two free bits. -/
def State.finishDivide (s : State) (ctx : Ctx) (dr : Reg) (q : Word) : State :=
  ({ s with draws := s.draws + 2 } : State).finish ctx.conditional dr
    (divResult q (Config.freeBit s.draws) (Config.freeBit (s.draws + 1)))

/-- DivideByZero of the word at `ctx.addr` (60_exceptions.md R326; 48_vliw.md R230). -/
def State.divideByZero (s : State) (ctx : Ctx) : State :=
  s.takeException .divZero ctx.addr (decide (ctx.slot = .first))

/-- The unsigned quotient. -/
def quotientU (a b : Word) : Word := a.udiv b

/-- The signed quotient, rounded toward zero; 0x80000000 by -1 is 0x80000000 (R191, entry 14). -/
def quotientS (a b : Word) : Word := a.sdiv b

/-- DIVU executed (R190). -/
def bodyDivu (dr : Reg) (b : Word) (ctx : Ctx) (s : State) : Ran :=
  if b = 0#32 then .raised (s.divideByZero ctx)
  else .done (s.finishDivide ctx dr (quotientU (s.readReg dr) b))

/-- DIVS executed (R191). -/
def bodyDivs (dr : Reg) (b : Word) (ctx : Ctx) (s : State) : Ran :=
  if b = 0#32 then .raised (s.divideByZero ctx)
  else .done (s.finishDivide ctx dr (quotientS (s.readReg dr) b))

/-- DIVU (R190). -/
def execDivu (dr : Reg) (cnd : Cond) (b : OpB) (s : State) : Host.Outcome State Fault Refusal :=
  .next (s.runWord s.cfg.implementDivide cnd fun ctx t => bodyDivu dr (t.opB b) ctx t)

/-- DIVS (R191). -/
def execDivs (dr : Reg) (cnd : Cond) (b : OpB) (s : State) : Host.Outcome State Fault Refusal :=
  .next (s.runWord s.cfg.implementDivide cnd fun ctx t => bodyDivs dr (t.opB b) ctx t)

end Sys2Proof.Machine
end

