-- ==== Sys2Proof/Machine/LoadStore.lean ====
section
/-!
DEFINITION. LOD and STO (47_load_store.md R210 to R213). Either waits for the store in flight (20_memory.md R81).
-/

namespace Sys2Proof.Machine

open Sys2Proof

/-- Wait for the store in flight. If it ends in a bus error, the error is delivered before the waiting instruction runs
(R213; entry 9), so that of a burst of STOs in which one errs the earlier ones have completed and none of the later ones runs
(70_reset_and_hazards.md R433 leaves it open; DESIGN CHOICE, entry 9). PHASE is set where the store was the first half of this
word (48_vliw.md R231, entry 10). -/
def State.waitForStore (s : State) (ctx : Ctx) : Ran :=
  match s.drainPosted with
  | (true, t) => .done t
  | (false, t) => .raised (t.takeException .busError ctx.addr (decide (ctx.slot = .second)))

/-- A load once the bus is free: the word, or BusError with `Ra` unchanged (R210). -/
def State.loadInto (s : State) (ctx : Ctx) (dr : Reg) (a : Word) : Ran :=
  match s.busRead a with
  | (some v, t) => .done (t.writeReg dr v)
  | (none, t) => .raised (t.takeException .busError ctx.addr (decide (ctx.slot = .first)))

/-- LOD executed (R210): operand B is the address. -/
def bodyLod (dr : Reg) (a : Word) (ctx : Ctx) (s : State) : Ran :=
  match s.waitForStore ctx with
  | .done t => t.loadInto ctx dr a
  | .raised t => .raised t

/-- STO executed (R211): `Ra` is posted for operand B's address. -/
def bodySto (dr : Reg) (a : Word) (ctx : Ctx) (s : State) : Ran :=
  match s.waitForStore ctx with
  | .done t => .done { t with posted := some (a, s.readReg dr) }
  | .raised t => .raised t

/-- LOD (R210). -/
def execLod (dr : Reg) (cnd : Cond) (b : OpB) (s : State) : Host.Outcome State Fault Refusal :=
  .next (s.runWord true cnd fun ctx t => bodyLod dr (t.opB b) ctx t)

/-- STO (R211). -/
def execSto (dr : Reg) (cnd : Cond) (b : OpB) (s : State) : Host.Outcome State Fault Refusal :=
  .next (s.runWord true cnd fun ctx t => bodySto dr (t.opB b) ctx t)

end Sys2Proof.Machine
end

