-- ==== Sys2Proof/Machine/MoveLdi.lean ====
section
/-!
DEFINITION. MOV and LDI (42_move_ldi.md R180, R181), and their VLIW forms (48_vliw.md R223, R225).
-/

namespace Sys2Proof.Machine

open Sys2Proof

/-- The set a MOV's A or B bit selects: in user mode always the user set (R180). -/
def State.movSet (s : State) (bit : Bool) : Bool := s.gie || bit

/-- MOV executed: register plus offset into a register, each of its own set (R180). -/
def bodyMov (dr : Reg) (a : Bool) (br : Reg) (b : Bool) (imm : BitVec 13) (_ctx : Ctx) (s : State) : Ran :=
  .done (s.writeIn (s.movSet a) dr (s.readIn (s.movSet b) br + imm.signExtend 32))

/-- MOV (R180). -/
def execMov (dr : Reg) (cnd : Cond) (a : Bool) (br : Reg) (b : Bool) (imm : BitVec 13) (s : State) :
    Host.Outcome State Fault Refusal :=
  .next (s.runWord true cnd fun ctx t => bodyMov dr a br b imm ctx t)

/-- A value put into a register of the active set, no flags: LDI executed (R181; 48_vliw.md R225). -/
def bodyLdi (dr : Reg) (v : Word) (_ctx : Ctx) (s : State) : Ran := .done (s.writeReg dr v)

/-- MOV in a VLIW half: the register operand B names, source and destination in the current set (48_vliw.md R223). -/
def bodyHalfMov (dr : Reg) (v : Word) (_ctx : Ctx) (s : State) : Ran := .done (s.writeReg dr v)

/-- LDI: the sign-extended 23-bit immediate; no condition (R181). -/
def execLdi (dr : Reg) (imm : BitVec 23) (s : State) : Host.Outcome State Fault Refusal :=
  .next (s.runWord true .always fun ctx t => bodyLdi dr (imm.signExtend 32) ctx t)

end Sys2Proof.Machine
end

