-- ==== Sys2Proof/Machine/Multiply.lean ====
section
/-!
DEFINITION. The multiplies (43_multiply.md R185 to R187), illegal where the multiplier is not built (30_encoding.md R114).
-/

namespace Sys2Proof.Machine

open Sys2Proof

/-- Whether the build has the multiplier (00_scope.md R6). -/
def State.hasMultiply (s : State) : Bool := s.cfg.implementMpy != 0

/-- MPY executed: the low 32 bits of the product (43_multiply.md R185). -/
def bodyMpy (dr : Reg) (b : Word) (ctx : Ctx) (s : State) : Ran :=
  .done (s.finish ctx.conditional dr (mpyResult (s.readReg dr) b))

/-- MPY (43_multiply.md R185). -/
def execMpy (dr : Reg) (cnd : Cond) (b : OpB) (s : State) : Host.Outcome State Fault Refusal :=
  .next (s.runWord s.hasMultiply cnd fun ctx t => bodyMpy dr (t.opB b) ctx t)

/-- MPYUHI executed: the high 32 bits of the unsigned product (43_multiply.md R186). -/
def bodyMpyuhi (dr : Reg) (b : Word) (ctx : Ctx) (s : State) : Ran :=
  .done (s.finish ctx.conditional dr (mpyuhiResult (s.readReg dr) b))

/-- MPYUHI (43_multiply.md R186). -/
def execMpyuhi (dr : Reg) (cnd : Cond) (b : OpB) (s : State) : Host.Outcome State Fault Refusal :=
  .next (s.runWord s.hasMultiply cnd fun ctx t => bodyMpyuhi dr (t.opB b) ctx t)

/-- MPYSHI executed: the high 32 bits of the signed product (43_multiply.md R187). -/
def bodyMpyshi (dr : Reg) (b : Word) (ctx : Ctx) (s : State) : Ran :=
  .done (s.finish ctx.conditional dr (mpyshiResult (s.readReg dr) b))

/-- MPYSHI (43_multiply.md R187). -/
def execMpyshi (dr : Reg) (cnd : Cond) (b : OpB) (s : State) : Host.Outcome State Fault Refusal :=
  .next (s.runWord s.hasMultiply cnd fun ctx t => bodyMpyshi dr (t.opB b) ctx t)

end Sys2Proof.Machine
end

