-- ==== Sys2Proof/Machine/System.lean ====
section
/-!
DEFINITION. NOOP, BREAK and LOCK (45_noop_break_lock.md R195 to R197).
-/

namespace Sys2Proof.Machine

open Sys2Proof

/-- NOOP executed: nothing (R195). -/
def bodyNoop (_ctx : Ctx) (s : State) : Ran := .done s

/-- NOOP (R195): its payload is ignored. -/
def execNoop (_bit27 : Bool) (_payload : BitVec 22) (s : State) : Host.Outcome State Fault Refusal :=
  .next (s.runWord true .always bodyNoop)

/-- BREAK (R196): to the supervisor with UBREAK, or HALTED; the PC stays at the BREAK (60_exceptions.md R327, R328). -/
def execBrk (_bit27 : Bool) (_payload : BitVec 22) (s : State) : Host.Outcome State Fault Refusal :=
  .next (s.takeException .break_ s.active.pc false)

/-- Whether the build has LOCK (R197). -/
def State.hasLock (s : State) : Bool := s.cfg.implementLock && s.cfg.pipelined

/-- LOCK executed: the next three instructions are one locked sequence (R197). -/
def bodyLock (_ctx : Ctx) (s : State) : Ran := .done { s with lockLeft := 3 }

/-- LOCK (R197). -/
def execLock (_bit27 : Bool) (_payload : BitVec 22) (s : State) : Host.Outcome State Fault Refusal :=
  .next (s.runWord s.hasLock .always bodyLock)

end Sys2Proof.Machine
end

