-- ==== Sys2Proof/Machine/Vliw.lean ====
section
/-!
DEFINITION. Two instructions in one word (48_vliw.md R220 to R232).
-/

namespace Sys2Proof.Machine

open Sys2Proof

/-- Whether a half's opcode is built (R222, R227): what is illegal in a standard word is illegal here. BREAK and LOCK are
not illegal but outside the domain (R232). -/
def State.halfLegal (s : State) (h : Half) : Bool :=
  match h with
  | .std .mpy _ _ => s.hasMultiply
  | .std .mpyuhi _ _ => s.hasMultiply
  | .std .mpyshi _ _ => s.hasMultiply
  | .std .divu _ _ => s.cfg.implementDivide
  | .std .divs _ _ => s.cfg.implementDivide
  | .std _ _ _ => true
  | .mov _ _ => true
  | .ldi _ _ _ => true
  | .group _ sel _ => decide (sel.toNat < 3)
  | .unbuilt _ _ _ => false

/-- Whether a half's destination is CC or PC and it is not CMP, TST, STO or NOOP (R232). -/
def halfWritesPcOrCc (h : Half) : Bool :=
  match h with
  | .std .cmp _ _ => false
  | .std .tst _ _ => false
  | .std .sto _ _ => false
  | .std _ dr _ => !dr.isGpr
  | .mov dr _ => !dr.isGpr
  | .ldi dr _ _ => !dr.isGpr
  | .group _ _ _ => false
  | .unbuilt _ _ _ => false

/-- A half that is BREAK or LOCK (R232). -/
def halfBreakOrLock (h : Half) : Bool :=
  match h with
  | .group _ sel _ => sel == 1#3 || sel == 2#3
  | .std _ _ _ => false
  | .mov _ _ => false
  | .ldi _ _ _ => false
  | .unbuilt _ _ _ => false

/-- A half that is a MOV with select bit 0 (R232). -/
def halfMovImmediate (h : Half) : Bool :=
  match h with
  | .mov _ (.imm _) => true
  | .mov _ (.reg _) => false
  | .std _ _ _ => false
  | .ldi _ _ _ => false
  | .group _ _ _ => false
  | .unbuilt _ _ _ => false

/-- A half that is an LDI with opcode bit 0 set (R232). -/
def halfLdiSixthBit (h : Half) : Bool :=
  match h with
  | .ldi _ low _ => low
  | .std _ _ _ => false
  | .mov _ _ => false
  | .group _ _ _ => false
  | .unbuilt _ _ _ => false

/-- Why R232 puts a word of legal halves outside the model's domain, if it does. -/
def vliwRefusal (f g : Half) : Option Refusal :=
  if halfBreakOrLock f || halfBreakOrLock g then some .vliwBreakOrLock
  else if halfWritesPcOrCc f then some .vliwFirstHalfWritesPcOrCc
  else if halfMovImmediate f || halfMovImmediate g then some .vliwMovImmediate
  else if halfLdiSixthBit f || halfLdiSixthBit g then some .vliwLdiSixthBit
  else none

/-- A half that accesses memory. -/
def halfUsesMemory (h : Half) : Bool :=
  match h with
  | .std .lod _ _ => true
  | .std .sto _ _ => true
  | .std _ _ _ => false
  | .mov _ _ => false
  | .ldi _ _ _ => false
  | .group _ _ _ => false
  | .unbuilt _ _ _ => false

/-- A standard operation executed in a half: the same body as in a word of its own (R222). -/
def bodyStd (op : StdOp) (dr : Reg) (b : Word) (ctx : Ctx) (s : State) : Ran :=
  match op with
  | .sub => bodySub dr b ctx s
  | .and => bodyAnd dr b ctx s
  | .add => bodyAdd dr b ctx s
  | .or => bodyOr dr b ctx s
  | .xor => bodyXor dr b ctx s
  | .lsr => bodyLsr dr b ctx s
  | .lsl => bodyLsl dr b ctx s
  | .asr => bodyAsr dr b ctx s
  | .mpy => bodyMpy dr b ctx s
  | .ldilo => bodyLdilo dr b ctx s
  | .mpyuhi => bodyMpyuhi dr b ctx s
  | .mpyshi => bodyMpyshi dr b ctx s
  | .brev => bodyBrev dr b ctx s
  | .popc => bodyPopc dr b ctx s
  | .rol => bodyRol dr b ctx s
  | .cmp => bodyCmp dr b ctx s
  | .tst => bodyTst dr b ctx s
  | .lod => bodyLod dr b ctx s
  | .sto => bodySto dr b ctx s
  | .divu => bodyDivu dr b ctx s
  | .divs => bodyDivs dr b ctx s

/-- A half executed (R222, R223, R225, R227). A half that is neither legal nor in the domain never reaches this. -/
def bodyHalf (h : Half) (ctx : Ctx) (s : State) : Ran :=
  match h with
  | .std op dr b => bodyStd op dr (s.halfB b) ctx s
  | .mov dr b => bodyHalfMov dr (s.halfB b) ctx s
  | .ldi dr _ imm => bodyLdi dr (imm.signExtend 32) ctx s
  | .group _ _ _ => bodyNoop ctx s
  | .unbuilt _ _ _ => .done s

/-- Before a word with a LOD or STO in either half, the store of an earlier word completes (20_memory.md R81); its error is
delivered before the word. It does so also where the condition skips that half: R82 leaves the time open (DESIGN CHOICE, entry
10). -/
def State.vliwStart (s : State) (ctx : Ctx) (f g : Half) : Ran :=
  if halfUsesMemory f || halfUsesMemory g then s.waitForStore ctx else .done s

/-- The first half, if its condition holds (R226, R228). -/
def State.vliwFirst (s : State) (a : Word) (cnd : Cond2) (f : Half) : Ran :=
  if cond2Holds cnd s.active.flags then bodyHalf f ⟨a, .first, decide (cnd ≠ .always)⟩ s else .done s

/-- Before a second half that accesses memory executes, the first half's store completes (20_memory.md R81), and other masters
may have the bus: the two halves are two transactions, atomic together only under LOCK (R75). -/
def State.betweenHalves (s : State) (ctx : Ctx) (g : Half) : Ran :=
  if halfUsesMemory g then
    match s.waitForStore ctx with
    | .raised t => .raised t
    | .done t => .done t.grantBus
  else .done s

/-- The second half: under the condition, tested on the flags the first half left, if C2 = 1, and always if C2 = 0
(R226, R228). -/
def State.vliwSecond (s : State) (a : Word) (c2 : Bool) (cnd : Cond2) (g : Half) : Ran :=
  if !c2 || cond2Holds cnd s.active.flags then
    let ctx : Ctx := ⟨a, .second, c2 && decide (cnd ≠ .always)⟩
    match s.betweenHalves ctx g with
    | .raised t => .raised t
    | .done t => bodyHalf g ctx t
  else .done s

/-- A legal word inside the domain, the PC already past it (R228, R230): an exception of the first half ends the word. -/
def State.runVliw (s : State) (a : Word) (c2 : Bool) (cnd : Cond2) (f g : Half) : State :=
  match s.vliwStart ⟨a, .whole, false⟩ f g with
  | .raised t => t
  | .done t =>
    match t.vliwFirst a cnd f with
    | .raised u => u
    | .done u => (u.vliwSecond a c2 cnd g).state

/-- A VLIW word: IllegalInstruction where VLIW is not built or a half is illegal (R220, R230); the refusals of R232; else
both halves in order (R228). -/
def execVliw (c2 : Bool) (cnd : Cond2) (f g : Half) (s : State) : Host.Outcome State Fault Refusal :=
  if s.cfg.optVliw && s.halfLegal f && s.halfLegal g then
    match vliwRefusal f g with
    | some r => .refused r
    | none => .next (s.advance.runVliw s.active.pc c2 cnd f g)
  else .next (s.takeException .illegal s.active.pc false)

end Sys2Proof.Machine
end

