-- ==== Sys2Proof/Machine/Dispatch.lean ====
section
/-!
DEFINITION. One arm per instruction: a direct call of its meaning.
-/

namespace Sys2Proof.Machine

open Sys2Proof

/-- The meaning of an instruction. -/
def exec (i : Instr) (s : State) : Host.Outcome State Fault Refusal :=
  match i with
  | .vliw c2 cnd first second => Sys2Proof.Machine.execVliw c2 cnd first second s
  | .ldi dr imm => Sys2Proof.Machine.execLdi dr imm s
  | .noop bit27 payload => Sys2Proof.Machine.execNoop bit27 payload s
  | .brk bit27 payload => Sys2Proof.Machine.execBrk bit27 payload s
  | .lock bit27 payload => Sys2Proof.Machine.execLock bit27 payload s
  | .illegalNoopgrp3 bit27 payload => Sys2Proof.Machine.execIllegalNoopgrp3 bit27 payload s
  | .illegalNoopgrp4 bit27 payload => Sys2Proof.Machine.execIllegalNoopgrp4 bit27 payload s
  | .illegalNoopgrp5 bit27 payload => Sys2Proof.Machine.execIllegalNoopgrp5 bit27 payload s
  | .illegalNoopgrp6 bit27 payload => Sys2Proof.Machine.execIllegalNoopgrp6 bit27 payload s
  | .illegalNoopgrp7 bit27 payload => Sys2Proof.Machine.execIllegalNoopgrp7 bit27 payload s
  | .mov dr cnd a br b imm => Sys2Proof.Machine.execMov dr cnd a br b imm s
  | .sub dr cnd b => Sys2Proof.Machine.execSub dr cnd b s
  | .and dr cnd b => Sys2Proof.Machine.execAnd dr cnd b s
  | .add dr cnd b => Sys2Proof.Machine.execAdd dr cnd b s
  | .or dr cnd b => Sys2Proof.Machine.execOr dr cnd b s
  | .xor dr cnd b => Sys2Proof.Machine.execXor dr cnd b s
  | .lsr dr cnd b => Sys2Proof.Machine.execLsr dr cnd b s
  | .lsl dr cnd b => Sys2Proof.Machine.execLsl dr cnd b s
  | .asr dr cnd b => Sys2Proof.Machine.execAsr dr cnd b s
  | .mpy dr cnd b => Sys2Proof.Machine.execMpy dr cnd b s
  | .ldilo dr cnd b => Sys2Proof.Machine.execLdilo dr cnd b s
  | .mpyuhi dr cnd b => Sys2Proof.Machine.execMpyuhi dr cnd b s
  | .mpyshi dr cnd b => Sys2Proof.Machine.execMpyshi dr cnd b s
  | .brev dr cnd b => Sys2Proof.Machine.execBrev dr cnd b s
  | .popc dr cnd b => Sys2Proof.Machine.execPopc dr cnd b s
  | .rol dr cnd b => Sys2Proof.Machine.execRol dr cnd b s
  | .cmp dr cnd b => Sys2Proof.Machine.execCmp dr cnd b s
  | .tst dr cnd b => Sys2Proof.Machine.execTst dr cnd b s
  | .lod dr cnd b => Sys2Proof.Machine.execLod dr cnd b s
  | .sto dr cnd b => Sys2Proof.Machine.execSto dr cnd b s
  | .divu dr cnd b => Sys2Proof.Machine.execDivu dr cnd b s
  | .divs dr cnd b => Sys2Proof.Machine.execDivs dr cnd b s
  | .fpadd dr cnd b => Sys2Proof.Machine.execFpadd dr cnd b s
  | .fpsub dr cnd b => Sys2Proof.Machine.execFpsub dr cnd b s
  | .fpmpy dr cnd b => Sys2Proof.Machine.execFpmpy dr cnd b s
  | .fpdiv dr cnd b => Sys2Proof.Machine.execFpdiv dr cnd b s
  | .fpi2f dr cnd b => Sys2Proof.Machine.execFpi2f dr cnd b s
  | .fpf2i dr cnd b => Sys2Proof.Machine.execFpf2i dr cnd b s
  | .reserved1e dr cnd b => Sys2Proof.Machine.execReserved1e dr cnd b s
  | .reserved1f dr cnd b => Sys2Proof.Machine.execReserved1f dr cnd b s

end Sys2Proof.Machine
end

