-- ==== Sys2Proof/Machine/Cycle.lean ====
section
/-!
DEFINITION. The instruction cycle (40_execution_common.md R140): fetch, interrupt, wait, halt, the late bus error of a
store (47_load_store.md R213), STEP (60_exceptions.md R346).
-/

namespace Sys2Proof.Machine

open Sys2Proof

/-- Fetch the word at the active PC: from the cache if it is there, else from the bus; none: a bus error
(20_memory.md R87 to R89). -/
def State.fetch (s : State) : Option Word × State :=
  match (if s.cfg.pipelined then Memory.read s.icache s.active.pc.toNat else none) with
  | some w => (some w, s)
  | none =>
    match s.busRead s.active.pc with
    | (some w, t) => (some w, if t.cur.fill then t.keepInCache s.active.pc w else t)
    | (none, t) => (none, t)

/-- The instructions left of a locked sequence after `i`: one fewer, but LOCK itself begins one (45_noop_break_lock.md R197). -/
def lockAfter (i : Instr) (n : Nat) : Nat :=
  match i with
  | .lock _ _ => n
  | _ => n - 1

/-- The instruction `i` of a locked sequence has completed (R197). -/
def State.lockStep (s : State) (i : Instr) : State := { s with lockLeft := lockAfter i s.lockLeft }

/-- Execute an instruction, and count it off a locked sequence (R197). -/
def State.perform (i : Instr) (s : State) : Host.Outcome State Fault Refusal :=
  match exec i s with
  | .next u => .next (u.lockStep i)
  | .fault r => .fault r
  | .refused r => .refused r

/-- How many instructions a word issues: two for a VLIW word (60_exceptions.md R365, entry 23). -/
def issues (w : Word) : Nat := if w.getLsbD 31 then 2 else 1

/-- The bus error of an earlier store, delivered at a boundary to the mode now running, with the next instruction's address
(47_load_store.md R213; 60_exceptions.md R314 item 3, R325). -/
def State.deliverStoreError (s : State) : State :=
  ({ s with storeErr := false } : State).takeException .busError s.active.pc false

/-- Run what comes next, a store in flight landing before anything that halts the CPU (20_memory.md R82). If that store errs,
its error comes first and what would have halted does not run (60_exceptions.md R314 items 3 and 5; entry 9). -/
def State.landBeforeHalt (s : State) (run : State → Host.Outcome State Fault Refusal) : Host.Outcome State Fault Refusal :=
  match run s with
  | .next u =>
    if u.halted && s.posted.isSome then
      match s.drainPosted with
      | (true, t) => run t
      | (false, t) => .next t.deliverStoreError
    else .next u
  | .fault r => .fault r
  | .refused r => .refused r

/-- Fetch, decode, execute (R140 items 4 to 8); a fetch bus error is an IllegalInstruction (60_exceptions.md R324). -/
def State.runOne (s : State) : Host.Outcome State Fault Refusal :=
  match s.fetch with
  | (none, t) => t.landBeforeHalt fun r => .next (r.takeException .illegal r.active.pc false)
  | (some w, t) => (t.countEvents t.gie 0 0 (issues w)).landBeforeHalt (State.perform (decode w))

/-- The posted store at the end of a step (20_memory.md R82): with the CPU halted it has landed; else it lands if the
environment says so, whatever the CPU does next, sleeping included, and its bus error is delivered (R213). -/
def State.settleStore (s : State) : State :=
  if s.halted then s.landHeld
  else if s.cur.drain then
    match s.drainPosted with
    | (true, t) => t
    | (false, t) => t.deliverStoreError
  else s

/-- One user instruction completed with STEP set: back to supervisor mode (60_exceptions.md R346). `ran`: an instruction
was executed, and in user mode. -/
def State.stepSwitch (s : State) (ran : Bool) : State :=
  if ran && s.gie && s.stepBit && !s.halted then s.enterSupervisor s.usr.pc false else s

/-- The end of a step: after a single step the debug port's hold (60_exceptions.md R372), which comes before a store's error
(R314); else the store, and STEP. -/
def State.settle (s : State) (ran single : Bool) : State :=
  if single && !s.halted then (s.stepSwitch ran).debugHalt else s.settleStore.stepSwitch ran

/-- Whether the interrupt is taken at this boundary (R140 item 2; 60_exceptions.md R312). -/
def State.takesInterrupt (s : State) : Bool := s.gie && s.irq && s.irqSeen && s.lockLeft == 0

/-- The CPU's part of a step (R140), in the order of 60_exceptions.md R314. `single`: the debug port commanded one
instruction. -/
def State.cpu (s : State) (single : Bool) : Host.Outcome State Fault Refusal :=
  if s.halted then .next (s.settle false single)
  else if s.storeErr then .next (s.deliverStoreError.settle false single)
  else if !s.gie && s.sleep then .next (s.haltIfAsleep.settle false single)
  else if s.takesInterrupt then .next ((s.enterSupervisor s.usr.pc false).settle false single)
  else if s.gie && s.sleep then .next (s.settle false single)
  else
    match s.runOne with
    | .next t => .next (t.settle s.gie single)
    | .fault r => .fault r
    | .refused r => .refused r

/-- One step once the environment's choice is in force (entry 8): reset, and the step's clocks, the Jiffies and the counters
counting through it (70_reset_and_hazards.md R404, 60 R364); else the host's access, the other agents, the interrupt input, the
CPU. -/
def State.cycle (s : State) : Host.Outcome State Fault Refusal :=
  if s.cur.reset then .next (State.clocks (s.cur.ticks + 1) s.warmReset)
  else
    match s.hostAccess with
    | none => .fault .debugWriteWhileRunning
    | some (t, single) => t.agents.look.cpu single

/-- `s` with the word `w` where the next instruction is fetched from: memory at the active PC, and no older copy in the
cache. -/
def State.placeWord (s : State) (w : Word) : State :=
  { s with
    mem := Memory.write s.mem s.active.pc.toNat w
    icache := Memory.drop s.icache s.active.pc.toNat }

end Sys2Proof.Machine
end

