-- ==== Sys2Proof/Machine/Step.lean ====
section
/-!
DEFINITION. One step of the machine (entry 8), and the host's way to place an instruction (entry 33).
-/

namespace Sys2Proof.Machine

open Sys2Proof

/-- One step: the environment's next choice comes into force, and the machine does one cycle of it. -/
def step (s : State) : Host.Outcome State Fault Refusal := s.loadEnv.cycle

/-- `s` with the instruction whose bits are `w` stored where the next step fetches (entry 33): an instruction is one word
(30_encoding.md R100). -/
def State.withFetchWord (s : State) (_nbits w : Nat) : State := s.placeWord (BitVec.ofNat 32 w)

end Sys2Proof.Machine
end

