-- ==== Sys2Proof/Safety.lean ====
section
/-!
DEFINITION. What a run keeps, in the terms the statements use: the invariant of the machine, the end of a run, and when an
address answers as what the platform's map has there.
-/

namespace Sys2Proof.Machine

open Sys2Proof

/-- What every step keeps, in every build and under every environment. -/
structure State.Inv (s : State) : Prop where
  /-- Memory is in its canonical form. -/
  mem_wf : Memory.wf s.mem = true
  /-- The instruction cache is in the same form. -/
  icache_wf : Memory.wf s.icache = true
  /-- The cache holds at most 2^LGICACHE words (10_state.md R51). -/
  icache_room : s.icache.length ≤ 2 ^ s.cfg.lgicache
  /-- Without the pipeline there is no cache (20_memory.md R88). -/
  icache_absent : s.cfg.pipelined = false → s.icache = []
  /-- `lock_left` is in 0..3 (10_state.md R53). -/
  lock_range : s.lockLeft ≤ 3
  /-- FPERR is never set (10_state.md R43). -/
  fp_never : s.sup.fpErr = false ∧ s.usr.fpErr = false
  /-- A halted CPU has no store in flight (20_memory.md R82). -/
  halted_settled : s.halted = true → s.posted = none
  /-- A halted CPU is in no locked sequence (45_noop_break_lock.md R197, entry 30). -/
  halted_unlocked : s.halted = true → s.lockLeft = 0
  /-- Only a halted CPU has a store's bus error yet to be delivered (60_exceptions.md R314, entry 9). -/
  error_held : s.storeErr = true → s.halted = true
  /-- Asleep in supervisor mode is halted (10_state.md R50, 60_exceptions.md R351). -/
  asleep_halted : s.gie = false → s.sleep = true → s.halted = true
  /-- In user mode no cause of an earlier stop is left in uCC (60_exceptions.md R340). -/
  user_no_cause : s.gie = true → s.usr.ill = false ∧ s.usr.busErr = false ∧ s.usr.divErr = false ∧ s.usr.phase = false
    ∧ s.trap = false ∧ s.ubreak = false
  /-- The watchdog never reloads (60_exceptions.md R361). -/
  watchdog_oneshot : s.per.wdt.reload = false
  /-- An idle DMA controller holds no words (60_exceptions.md R369). -/
  dma_idle_empty : s.per.dma.active = false → s.per.dma.buffer = []

/-- The end of a run: the CPU executes nothing until reset or the debug port acts (10_state.md R50). -/
def State.ended (s : State) : Prop := s.halted = true

/-- The environment troubles no transaction with this address at this step (60_exceptions.md R362). -/
def State.calm (s : State) (a : Word) : Prop := ∀ f ∈ s.cur.fates, f.addr ≠ a

/-- An address answers at this step as what the platform's map has there: outside the peripheral space, mapped (20_memory.md
R78), no ERR and no time-out for it (R79). -/
def State.answersAs (s : State) (a : Word) (kind : RegionKind) : Prop :=
  inPeriphSpace a = false ∧ kindAt s.cfg a = some kind ∧ s.calm a

/-- An address answers as plain RAM at this step. -/
def State.ramReady (s : State) (a : Word) : Prop := s.answersAs a .ram

end Sys2Proof.Machine
end

