-- ==== Sys2Proof/Certificates/Slice0/Obligations.lean ====
section
/-!
DEFINITION. The statements for the provers. The helpers of the first part say, in the spec's own terms, what a state
becomes; every statement about a single instruction gives the WHOLE next state, so that it is its own frame. Where a docstring
names D<n>, that clause is the spec's own decision of 92_eei_decisions.md, which the model adopts, and not the source's words.
-/

namespace Sys2Proof.Says

open Sys2Proof Sys2Proof.Machine

/-! ## States an instruction leaves -/

/-- The set the mode selects (10_state.md R21). -/
def own (s : State) : RegSet := if s.gie then s.usr else s.sup

/-- `s` with the set the mode selects replaced; nothing else changes. -/
def withOwn (s : State) (rs : RegSet) : State := if s.gie then { s with usr := rs } else { s with sup := rs }

/-- `s` with the PC of the running mode at `pc`; nothing else changes. -/
def moved (s : State) (pc : Word) : State := withOwn s { own s with pc := pc }

/-- `s` past the instruction: only the PC has advanced (R28). -/
def passed (s : State) : State := moved s ((own s).pc + 1#32)

/-- `s` past an instruction that wrote `v` to general register `n` and left the flags `f`; nothing else changes. -/
def wrote (s : State) (n : Fin 14) (v : Word) (f : Flags) : State :=
  withOwn s { own s with pc := (own s).pc + 1#32, r := (own s).r.set n v, flags := f }

/-- The switch to supervisor mode (60_exceptions.md R320, R321): the user PC saved, PHASE as given, GIE and SLEEP clear, a
locked sequence over; nothing else changes. -/
def entered (s : State) (saved : Word) (phase : Bool) : State :=
  { s with usr := { s.usr with pc := saved, phase := phase }, gie := false, sleep := false, lockLeft := 0 }

/-- IllegalInstruction taken at the running mode's PC (R324, R330). -/
def illegalEntry (s : State) : State :=
  if s.gie then entered { s with usr := { s.usr with ill := true } } s.usr.pc false
  else { s with sup := { s.sup with ill := true, phase := false }, halted := true, lockLeft := 0 }

/-- DivideByZero taken at the running mode's PC (R326, R330). -/
def divZeroEntry (s : State) (phase : Bool) : State :=
  if s.gie then entered { s with usr := { s.usr with divErr := true } } s.usr.pc phase
  else { s with sup := { s.sup with divErr := true, phase := phase }, halted := true, lockLeft := 0 }

/-- BusError taken at the running mode's PC (R325, R330). -/
def busErrorEntry (s : State) (phase : Bool) : State :=
  if s.gie then entered { s with usr := { s.usr with busErr := true } } s.usr.pc phase
  else { s with sup := { s.sup with busErr := true, phase := phase }, halted := true, lockLeft := 0 }

/-- The bus error of an earlier store delivered at a boundary (R213, R314): BusError at the running mode's PC, and no such error
left to deliver. -/
def storeErrorEntry (s : State) : State := busErrorEntry { s with storeErr := false } false

/-- `s` when a bus access to `a` has failed: after a time-out WBU holds the address (R362), else nothing has changed but the
model's schedule, where this transaction is over (log entry 21). -/
def failed (s : State) (a : Word) : State :=
  { s.turn a with per := { s.per with wbu := if s.timesOut a then a else s.per.wbu } }

/-- What a supervisor-mode write of `v` to sCC leaves in sCC and in the cache (10_state.md R48, second column). -/
def sccWritten (s : State) (v : Word) : State :=
  { s with
    sup := { s.sup with
      flags := ⟨v.getLsbD 0, v.getLsbD 1, v.getLsbD 2, v.getLsbD 3⟩
      ill := s.sup.ill && v.getLsbD 8
      busErr := s.sup.busErr && v.getLsbD 10
      divErr := s.sup.divErr && v.getLsbD 11 }
    icache := if v.getLsbD 14 then [] else s.icache
    sleep := v.getLsbD 4
    stepBit := v.getLsbD 6
    breakEn := v.getLsbD 7 }

/-- The return to user mode (R340): the user set's cause bits fall and GIE rises. -/
def returned (s : State) : State :=
  { s with
    usr := { s.usr with ill := false, busErr := false, divErr := false, fpErr := false, phase := false }
    trap := false
    ubreak := false
    gie := true }

/-- What a supervisor-mode MOV of `v` leaves in uCC (10_state.md R48, third column). -/
def uccWritten (s : State) (v : Word) : State :=
  { s with
    usr := { s.usr with
      flags := ⟨v.getLsbD 0, v.getLsbD 1, v.getLsbD 2, v.getLsbD 3⟩
      busErr := s.usr.busErr && v.getLsbD 10
      divErr := s.usr.divErr && v.getLsbD 11 }
    sleep := v.getLsbD 4
    stepBit := v.getLsbD 6
    ubreak := s.ubreak && v.getLsbD 7 }

/-! ## Operands -/

/-- What an instruction reads from a register of the running mode (40_execution_common.md R141): PC as the address of the
next instruction. -/
def regValue (s : State) (r : Reg) : Word :=
  match r with
  | .gpr n => (own s).r[n]
  | .cc => s.readCC s.gie
  | .pc => (own s).pc + 1#32

/-- Operand B (30_encoding.md R104): an immediate, or a register plus an immediate, sign-extended. -/
def operandB (s : State) (b : OpB) : Word :=
  match b with
  | .imm i => i.signExtend 32
  | .reg br off => regValue s br + off.signExtend 32

/-- Operand B of a VLIW half (48_vliw.md R223). -/
def halfOperand (s : State) (b : HalfB) : Word :=
  match b with
  | .imm i => i.signExtend 32
  | .reg br => regValue s br

/-- Z and N from a result, C and V as given (40_execution_common.md R146). -/
def zn (res : Word) (c v : Bool) : Flags := ⟨decide (res = 0#32), c, res.getLsbD 31, v⟩

/-! ## Shapes of instructions -/

/-- A standard instruction that computes `res a b` from `Ra` and operand B and, when it is unconditional and `DR` is a
general register, leaves the flags `fl a b old` (R145 to R148). With `DR` = PC it jumps, with `DR` = CC the result is a
write of CC; neither sets the flags from the result. `ok` is what the build must have. -/
def Computes (mk : Reg → Cond → OpB → Instr) (ok : State → Prop) (res : Word → Word → Word)
    (fl : Word → Word → Flags → Flags) : Prop :=
  ∀ (s : State) (cnd : Cond) (b : OpB), ok s → condHolds cnd (own s).flags = true →
    (∀ n : Fin 14, exec (mk (.gpr n) cnd b) s = .next (wrote s n (res (own s).r[n] (operandB s b))
      (if cnd = .always then fl (own s).r[n] (operandB s b) (own s).flags else (own s).flags)))
    ∧ exec (mk .pc cnd b) s = .next (moved s (res ((own s).pc + 1#32) (operandB s b)))
    ∧ exec (mk .cc cnd b) s = .next ((passed s).writeReg .cc (res (s.readCC s.gie) (operandB s b)))

/-- A build with everything this statement's instructions need. -/
def anyBuild (_ : State) : Prop := True

/-- Flags as they were. -/
def keep (_ _ : Word) (old : Flags) : Flags := old

/-- A comparison: only the flags change, whatever the condition field and `DR` (R147, R148, 41_alu.md R172, R173). -/
def Compares (mk : Reg → Cond → OpB → Instr) (fl : Word → Word → Flags) : Prop :=
  ∀ (s : State) (dr : Reg) (cnd : Cond) (b : OpB), condHolds cnd (own s).flags = true →
    exec (mk dr cnd b) s =
      .next (withOwn s { own s with pc := (own s).pc + 1#32, flags := fl (regValue s dr) (operandB s b) })

/-- A divide with a nonzero denominator: the quotient, Z and N from it, C and V some bits; the model's count of free values
moves on (44_divide.md). -/
def Divides (mk : Reg → Cond → OpB → Instr) (q : Word → Word → Word) : Prop :=
  ∀ (s : State) (cnd : Cond) (b : OpB), s.cfg.implementDivide = true → condHolds cnd (own s).flags = true →
    operandB s b ≠ 0#32 →
    (∀ n : Fin 14, ∃ c v k, exec (mk (.gpr n) cnd b) s = .next { wrote s n (q (own s).r[n] (operandB s b))
      (if cnd = .always then zn (q (own s).r[n] (operandB s b)) c v else (own s).flags) with draws := k })
    ∧ (∃ k, exec (mk .pc cnd b) s = .next { moved s (q ((own s).pc + 1#32) (operandB s b)) with draws := k })
    ∧ (∃ k, exec (mk .cc cnd b) s =
        .next (({ passed s with draws := k } : State).writeReg .cc (q (s.readCC s.gie) (operandB s b))))

/-- The standard instructions with a condition field that every build runs. -/
def conditionalRows : List (Reg → Cond → OpB → Instr) :=
  [.sub, .and, .add, .or, .xor, .lsr, .lsl, .asr, .ldilo, .brev, .popc, .rol, .cmp, .tst, .lod, .sto]

/-- Those that need the multiplier. -/
def multiplyRows : List (Reg → Cond → OpB → Instr) := [.mpy, .mpyuhi, .mpyshi]

/-- Those that need the divide unit. -/
def divideRows : List (Reg → Cond → OpB → Instr) := [.divu, .divs]

/-- The floating-point and reserved rows, which no build has. -/
def unbuiltRows : List (Reg → Cond → OpB → Instr) :=
  [.fpadd, .fpsub, .fpmpy, .fpdiv, .fpi2f, .fpf2i, .reserved1e, .reserved1f]

/-- The undefined rows of the NOOP space. -/
def undefinedGroupRows : List (Bool → BitVec 22 → Instr) :=
  [.illegalNoopgrp3, .illegalNoopgrp4, .illegalNoopgrp5, .illegalNoopgrp6, .illegalNoopgrp7]

/-! ## VLIW words -/

/-- The condition a VLIW condition stands for (48_vliw.md R226). -/
def widen (c : Cond2) : Cond :=
  match c with
  | .always => .always
  | .lt => .lt
  | .z => .z
  | .nz => .nz

/-- Operand B of a half as operand B of a whole word. -/
def widenB (b : HalfB) : OpB :=
  match b with
  | .imm i => .imm (i.signExtend 18)
  | .reg br => .reg br 0#14

/-- The whole-word instruction of a standard operation. -/
def stdInstr (op : StdOp) : Reg → Cond → OpB → Instr :=
  match op with
  | .sub => .sub
  | .and => .and
  | .add => .add
  | .or => .or
  | .xor => .xor
  | .lsr => .lsr
  | .lsl => .lsl
  | .asr => .asr
  | .mpy => .mpy
  | .ldilo => .ldilo
  | .mpyuhi => .mpyuhi
  | .mpyshi => .mpyshi
  | .brev => .brev
  | .popc => .popc
  | .rol => .rol
  | .cmp => .cmp
  | .tst => .tst
  | .lod => .lod
  | .sto => .sto
  | .divu => .divu
  | .divs => .divs

/-- What the instruction word answers that does what a half does under a condition (R222, R223, R225, R227); of an LDI half, which
is conditional like any other, the LDI word if the condition holds; none for the halves that R230 or R232 stop on. -/
def wholeOf (h : Half) (cnd : Cond) : Option (State → Host.Outcome State Fault Refusal) :=
  match h with
  | .std op dr b => some (exec (stdInstr op dr cnd (widenB b)))
  | .mov dr (.reg br) => some (exec (.mov dr cnd false br false 0#13))
  | .mov _ (.imm _) => none
  | .ldi dr false imm =>
    some fun s => if condHolds cnd (own s).flags then exec (.ldi dr (imm.signExtend 23)) s else .next (passed s)
  | .ldi _ true _ => none
  | .group _ sel _ => if sel = 0#3 then some (exec (.noop false 0#22)) else none
  | .unbuilt _ _ _ => none

/-- What stands between the halves of a VLIW word: before a second half that executes and accesses memory, the store of the first
has landed and other masters may have had the bus (20_memory.md R75, R81). -/
def handed (s : State) (executes : Bool) (g : Half) : State :=
  match g with
  | .std .lod _ _ => if executes then s.drainPosted.2.grantBus else s
  | .std .sto _ _ => if executes then s.drainPosted.2.grantBus else s
  | _ => s

/-- A half that is built and raises no exception in `s`: multiplies and divides built, a nonzero denominator, RAM at the
address of a load or store. -/
def Runs (s : State) (h : Half) : Prop :=
  match h with
  | .std .mpy _ _ => s.cfg.implementMpy ≠ 0
  | .std .mpyuhi _ _ => s.cfg.implementMpy ≠ 0
  | .std .mpyshi _ _ => s.cfg.implementMpy ≠ 0
  | .std .divu _ b => s.cfg.implementDivide = true ∧ halfOperand s b ≠ 0#32
  | .std .divs _ b => s.cfg.implementDivide = true ∧ halfOperand s b ≠ 0#32
  | .std .lod _ b => s.ramReady (halfOperand s b)
  | .std .sto _ b => s.ramReady (halfOperand s b)
  | _ => True

/-- A first half that R232 admits: its destination is a general register, or it is CMP, TST, STO or NOOP. -/
def AdmittedFirst (h : Half) : Prop :=
  match h with
  | .std .cmp _ _ => True
  | .std .tst _ _ => True
  | .std .sto _ _ => True
  | .std _ dr _ => dr.isGpr = true
  | .mov dr _ => dr.isGpr = true
  | .ldi dr _ _ => dr.isGpr = true
  | .group _ _ _ => True
  | .unbuilt _ _ _ => False

/-- A half whose opcode is built in `s` (R222, R227); BREAK and LOCK count as such, R232 refuses them. -/
def Built (s : State) (h : Half) : Prop :=
  match h with
  | .std .mpy _ _ => s.cfg.implementMpy ≠ 0
  | .std .mpyuhi _ _ => s.cfg.implementMpy ≠ 0
  | .std .mpyshi _ _ => s.cfg.implementMpy ≠ 0
  | .std .divu _ _ => s.cfg.implementDivide = true
  | .std .divs _ _ => s.cfg.implementDivide = true
  | .group _ sel _ => sel.toNat < 3
  | .unbuilt _ _ _ => False
  | _ => True

/-! ## Steps -/

/-- The machine when the CPU's part of the step begins: the environment's choice in force, the other agents done, the interrupt
input looked at. -/
def ready (s : State) : State := s.loadEnv.agents.look

/-- A step at which neither `i_rst` nor the host at the debug port acts. -/
def Undisturbed (s : State) : Prop := s.loadEnv.cur.reset = false ∧ s.loadEnv.cur.host = none

/-- The CPU is about to execute an instruction: not halted, no store's error to deliver, not asleep, no interrupt to take
(40_execution_common.md R140; 60_exceptions.md R314). -/
def Executing (p : State) : Prop :=
  p.halted = false ∧ p.storeErr = false ∧ p.sleep = false ∧ (p.gie && p.irq && p.irqSeen && p.lockLeft == 0) = false

/-- The fetched word is issued, and counted. -/
def issued (q : State) (w : Word) : State := q.countEvents q.gie 0 0 (issues w)

/-- The step's end after the instruction `i` (`user`: in user mode): one fewer is to go in a locked sequence, the posted store may
land, STEP may switch back. -/
def concluded (user : Bool) (i : Instr) (o : Host.Outcome State Fault Refusal) : Host.Outcome State Fault Refusal :=
  match o with
  | .next u => .next ((u.lockStep i).settleStore.stepSwitch user)
  | .fault r => .fault r
  | .refused r => .refused r

/-- A timer after so many clocks. -/
def ticks : Nat → Timer → Timer
  | 0, t => t
  | k + 1, t => ticks k t.tick.1

/-! ## Peripherals -/

/-- The address of the peripheral register with offset `k` (20_memory.md R77). -/
def registerAddress (k : Nat) : Word := 0xc0000000#32 + BitVec.ofNat 32 k

/-- Where the environment lets the transaction be (R362): a bus read of `base + k` answers `v` and changes nothing; a bus write of
`w` to it is acknowledged and leaves the peripherals `after w`, and nothing else changes. -/
def RegisterAt (s : State) (k : Nat) (v : Word) (after : Word → Periph) : Prop :=
  s.calm (registerAddress k) →
    s.busRead (registerAddress k) = (some v, s)
    ∧ ∀ w, s.busWrite (registerAddress k) w = (true, { s with per := after w })

/-- The word a controller reads as (60_exceptions.md R356). -/
def picWord (p : Pic) : Word :=
  BitVec.ofBool p.mie ++ p.en ++ BitVec.ofBool (p.mie && (p.en &&& p.st) != 0#15) ++ p.st

/-- The word a timer reads as (R360). -/
def timerWord (t : Timer) : Word := BitVec.ofBool t.reload ++ t.value

/-- A timer that `w` was written to (R360). -/
def timerWritten (w : Word) : Timer := ⟨w.extractLsb' 0 31, w.getLsbD 31, w.extractLsb' 0 31⟩

/-- A controller one of whose lines has pulsed, if `pulse` (R356). -/
def pulsed (p : Pic) (line : BitVec 15) (pulse : Bool) : Pic := if pulse then { p with st := p.st ||| line } else p

/-- The peripheral registers that a build has (R355): offsets 0 to 7; 8 to 15 with the counters; 16 to 19 with the DMA
controller; none in the ZipBones (R392). -/
def HasRegister (cfg : Config) (k : Nat) : Prop :=
  cfg.container = .zipSystem
  ∧ (k < 8 ∨ (k < 16 ∧ cfg.includeCounters = true) ∨ (16 ≤ k ∧ k < 20 ∧ cfg.includeDma = true))

/-- Nothing answers at an address (20_memory.md R76 to R79): outside the peripheral space the platform has nothing there, or the
address is in it, from 0xc0000000 up, and the build has no register there. -/
def NothingAt (cfg : Config) (a : Word) : Prop :=
  (a.toNat < 0xc0000000 ∧ kindAt cfg a = none)
  ∨ (0xc0000000 ≤ a.toNat ∧ ∀ k, HasRegister cfg k → a ≠ registerAddress k)

/-- The next transaction with an address ends in a bus error (20_memory.md R79; 60_exceptions.md R362): the bus watchdog ends it,
the environment has its slave raise ERR, or nothing answers. -/
def BusFails (s : State) (a : Word) : Prop :=
  s.timesOut a = true ∨ ⟨a, 0, .err⟩ ∈ s.cur.fates ∨ NothingAt s.cfg a

end Sys2Proof.Says

open Sys2Proof Sys2Proof.Machine Sys2Proof.Says

/-! ## Encoding -/

/-- DECODE AND ENCODE AGREE, for every well-formed instruction of the table (30_encoding.md R103 to R110; 48_vliw.md R221 to
R227). The bit positions are the spec's D2 and D3 (log entry 16). -/
def Obligations.DecodeOfEncode : Prop := ∀ i : Instr, i.wellFormed = true → decode (encode i) = i

/-- Every 32-bit word has exactly one meaning: it decodes to a well-formed instruction whose encoding is the word
(30_encoding.md R110). The bit positions are the spec's D2 and D3 (log entry 16). -/
def Obligations.EncodeOfDecode : Prop := ∀ w : Word, (decode w).wellFormed = true ∧ encode (decode w) = w

/-- Words of the spec's examples, one or more of each family, and what they stand for. The bit positions are the spec's recovery
D2 and D3 of a lost figure (log entry 16); that the A bit of MOV is bit 18 is from general knowledge (log entry 14). -/
def Obligations.DecodedWords : Prop :=
  decode 0x18000001#32 = .sub (.gpr 3) .always (.imm 1#18)
  ∧ decode 0x10844000#32 = .add (.gpr 2) .always (.reg (.gpr 1) 0#14)
  ∧ decode 0x04d48000#32 = .sto (.gpr 0) .z (.reg (.gpr 2) 0#14)
  ∧ decode 0x7bc44000#32 = .mov .pc .always true (.gpr 1) false 0#13
  ∧ decode 0x15ffffff#32 = .ldi (.gpr 2) 0x7fffff#23
  ∧ decode 0x12c44000#32 = .mpyshi (.gpr 2) .always (.reg (.gpr 1) 0#14)
  ∧ decode 0x15400007#32 = .divs (.gpr 2) .always (.imm 7#18)
  ∧ decode 0x7e400000#32 = .brk true 0#22
  ∧ decode 0x16044000#32 = .fpadd (.gpr 2) .always (.reg (.gpr 1) 0#14)
  ∧ decode 0x94344df1#32 = .vliw true .z (.std .cmp (.gpr 2) (.reg (.gpr 1))) (.mov (.gpr 3) (.reg (.gpr 1)))

/-! ## Conditions and the step -/

/-- The eight conditions (40_execution_common.md R143); LDI, NOOP, BREAK and LOCK execute whatever the flags are; and what the
conditions say after `CMP b,a`, of any two operands: `.LT`, `.GE` and `.GT` the signed order where the subtraction does not
overflow. -/
def Obligations.ConditionsAfterCompare : Prop :=
  (∀ f : Flags, condHolds .always f = true ∧ condHolds .lt f = f.n ∧ condHolds .z f = f.z ∧ condHolds .nz f = !f.z
    ∧ condHolds .gt f = (!f.n && !f.z) ∧ condHolds .ge f = !f.n ∧ condHolds .c f = f.c ∧ condHolds .v f = f.v)
  ∧ (∀ (s : State) (f : Flags) (imm : BitVec 23) (bit27 : Bool) (payload : BitVec 22) (t : State),
      t = withOwn s { own s with flags := f } →
      exec (.ldi (.gpr 0) imm) t = .next (wrote t 0 (imm.signExtend 32) f)
      ∧ exec (.noop bit27 payload) t = .next (passed t)
      ∧ (∃ u, exec (.brk bit27 payload) t = .next u ∧
        if t.gie && !t.breakEn then u.ubreak = true ∧ u.gie = false else u.halted = true)
      ∧ (t.cfg.implementLock = true → t.cfg.pipelined = true →
        ∃ u, exec (.lock bit27 payload) t = .next u ∧ u.lockLeft ≠ 0))
  ∧ ∀ (s : State) (dr : Reg) (cnd : Cond) (b : OpB), condHolds cnd (own s).flags = true →
    ∃ t, exec (.cmp dr cnd b) s = .next t
    ∧ (condHolds .z (own t).flags = true ↔ regValue s dr = operandB s b)
    ∧ (condHolds .nz (own t).flags = true ↔ regValue s dr ≠ operandB s b)
    ∧ (condHolds .c (own t).flags = true ↔ (regValue s dr).toNat < (operandB s b).toNat)
    ∧ ((own t).flags.v = false →
        (condHolds .lt (own t).flags = true ↔ (regValue s dr).toInt < (operandB s b).toInt)
        ∧ (condHolds .ge (own t).flags = true ↔ (operandB s b).toInt ≤ (regValue s dr).toInt)
        ∧ (condHolds .gt (own t).flags = true ↔ (operandB s b).toInt < (regValue s dr).toInt))

/-- A false condition (40_execution_common.md R144): the only effect is the PC's advance, in every build but for the multiplies and
divides, which need their unit; what is illegal is illegal still. The spec marks this its own D38, and D15 for the illegal ones (log
entry 15). -/
def Obligations.FalseConditionOnlyAdvances : Prop :=
  ∀ (s : State) (dr : Reg) (cnd : Cond) (b : OpB), condHolds cnd (own s).flags = false →
    (∀ mk ∈ conditionalRows, exec (mk dr cnd b) s = .next (passed s))
    ∧ (s.cfg.implementMpy ≠ 0 → ∀ mk ∈ multiplyRows, exec (mk dr cnd b) s = .next (passed s))
    ∧ (s.cfg.implementDivide = true → ∀ mk ∈ divideRows, exec (mk dr cnd b) s = .next (passed s))
    ∧ (∀ (a : Bool) (br : Reg) (x : Bool) (imm : BitVec 13), exec (.mov dr cnd a br x imm) s = .next (passed s))
    ∧ (∀ mk ∈ unbuiltRows, exec (mk dr cnd b) s = .next (illegalEntry s))
    ∧ (s.cfg.implementMpy = 0 → ∀ mk ∈ multiplyRows, exec (mk dr cnd b) s = .next (illegalEntry s))
    ∧ (s.cfg.implementDivide = false → ∀ mk ∈ divideRows, exec (mk dr cnd b) s = .next (illegalEntry s))

/-- A STEP RUNS THE DECODED INSTRUCTION (40_execution_common.md R140): when the CPU is about to execute and the fetch answers
`w`, the step is `exec` of `decode w` at the state the fetch left, the issue counted; after it one instruction fewer is to go in
a locked sequence, the posted store may land, and in user mode STEP may switch back. An instruction that halts waits for
a store in flight: it runs once the store has landed, or, if the store errs, its bus error comes instead (20_memory.md R82;
60_exceptions.md R314). That it waits before it runs, and what else a step does and in which order, is the model's (log entries
7, 8, 9, 23, 30). -/
def Obligations.StepRunsTheDecodedInstruction : Prop :=
  ∀ (s q : State) (w : Word), Undisturbed s → Executing (ready s) → (ready s).fetch = (some w, q) →
    (q.posted = none ∨ (∀ u, exec (decode w) (issued q w) = .next u → u.halted = false) →
      step s = concluded (ready s).gie (decode w) (exec (decode w) (issued q w)))
    ∧ ∀ u, q.posted ≠ none → exec (decode w) (issued q w) = .next u → u.halted = true →
      (∀ r, (issued q w).drainPosted = (true, r) → step s = concluded (ready s).gie (decode w) (exec (decode w) r))
      ∧ ∀ r, (issued q w).drainPosted = (false, r) → step s = .next (storeErrorEntry r)

/-- Where the word comes from (20_memory.md R87 to R89): the cached copy if there is one, whatever memory holds; else memory,
the cache keeping the word if the environment says so and there is room; a bus error on the fetch is IllegalInstruction, which
in supervisor mode halts and so lets a store in flight land first. When the cache keeps a word is the environment's (the spec's
D30, log entry 31); that the store's error comes first is log entry 9's. -/
def Obligations.FetchPrefersTheCache : Prop :=
  (∀ (s : State) (w : Word), s.cfg.pipelined = true → Memory.read s.icache (own s).pc.toNat = some w → s.fetch = (some w, s))
  ∧ (∀ s : State, (s.cfg.pipelined = false ∨ Memory.read s.icache (own s).pc.toNat = none) → s.ramReady (own s).pc →
      s.fetch = (some (Memory.fetch s.mem (own s).pc),
        if s.cur.fill && s.cfg.pipelined && decide (s.icache.length < 2 ^ s.cfg.lgicache) then
          { s with icache := Memory.write s.icache (own s).pc.toNat (Memory.fetch s.mem (own s).pc) }
        else s))
  ∧ (∀ s q : State, Undisturbed s → Executing (ready s) → (ready s).fetch = (none, q) →
      (q.gie = true → step s = .next (illegalEntry q).settleStore)
      ∧ (q.gie = false → ∀ r, q.drainPosted = (true, r) → step s = .next (illegalEntry r))
      ∧ (q.gie = false → ∀ r, q.drainPosted = (false, r) → step s = .next (storeErrorEntry r)))

/-! ## ALU -/

/-- SUB (41_alu.md R160): the difference; C is the borrow, V the signed overflow. The PC and CC forms' flags are the spec's D7
(log entry 15). -/
def Obligations.SubWritesTheDifference : Prop :=
  Computes .sub anyBuild (fun a b => a - b) fun a b _ =>
    zn (a - b) (decide (a.toNat < b.toNat)) (a.getLsbD 31 != b.getLsbD 31 && (a - b).getLsbD 31 != a.getLsbD 31)

/-- ADD (41_alu.md R162): the sum; C is the carry out of bit 31, V the signed overflow; with `DR` = PC a branch to `A + 1 +
b`. The PC and CC forms' flags are the spec's D7 (log entry 15). -/
def Obligations.AddWritesTheSum : Prop :=
  Computes .add anyBuild (fun a b => a + b) fun a b _ =>
    zn (a + b) (decide (2 ^ 32 ≤ a.toNat + b.toNat)) (a.getLsbD 31 == b.getLsbD 31 && (a + b).getLsbD 31 != a.getLsbD 31)

/-- AND, OR, XOR (41_alu.md R161, R163, R164): the bitwise result. That C and V become 0 is the spec's own decision D8 from
general knowledge (log entry 13). -/
def Obligations.LogicWritesTheBitwiseResult : Prop :=
  Computes .and anyBuild (fun a b => a &&& b) (fun a b _ => zn (a &&& b) false false)
  ∧ Computes .or anyBuild (fun a b => a ||| b) (fun a b _ => zn (a ||| b) false false)
  ∧ Computes .xor anyBuild (fun a b => a ^^^ b) fun a b _ => zn (a ^^^ b) false false

/-- LSR (41_alu.md R165): bit `i` of the result is bit `i + b` of `a`; C is the last bit shifted out. The result for counts
of 32 and more and V are the spec's decisions D10, D11 (log entry 13). -/
def Obligations.LsrShiftsRightLogically : Prop :=
  Computes .lsr anyBuild (fun a b => BitVec.ofNat 32 (a.toNat / 2 ^ min b.toNat 32)) fun a b _ =>
    zn (BitVec.ofNat 32 (a.toNat / 2 ^ min b.toNat 32)) (decide (b.toNat ≠ 0) && decide (b.toNat ≤ 32) && a.getLsbD (b.toNat - 1))
      (decide (b.toNat ≠ 0) && a.getLsbD 31)

/-- LSL (41_alu.md R166): the low 32 bits of `a` times a power of two; C is the last bit shifted out. The result for counts of
32 and more and V are the spec's decisions D10, D11 (log entry 13). -/
def Obligations.LslShiftsLeft : Prop :=
  Computes .lsl anyBuild (fun a b => BitVec.ofNat 32 (a.toNat * 2 ^ min b.toNat 32)) fun a b _ =>
    zn (BitVec.ofNat 32 (a.toNat * 2 ^ min b.toNat 32)) (decide (b.toNat ≠ 0) && decide (b.toNat ≤ 32) && a.getLsbD (32 - b.toNat))
      ((BitVec.ofNat 32 (a.toNat * 2 ^ min b.toNat 32)).getLsbD 31 != a.getLsbD 31)

/-- ASR (41_alu.md R167): the floor of the signed value over a power of two; C is the last bit shifted out. The row for counts of
32 and more and V = 0 are the spec's decisions D10, D11 (log entry 13). -/
def Obligations.AsrShiftsRightArithmetically : Prop :=
  Computes .asr anyBuild (fun a b => BitVec.ofInt 32 (a.toInt / 2 ^ min b.toNat 32)) fun a b _ =>
    zn (BitVec.ofInt 32 (a.toInt / 2 ^ min b.toNat 32)) (decide (b.toNat ≠ 0) && a.getLsbD (min b.toNat 32 - 1)) false

/-- POPC (41_alu.md R170) counts the one bits of operand B: of a word with bit `k` set, one more than of the word without it;
of 0, none. What it computes is from general knowledge (log entry 14), C and V are the spec's D8 (entry 13). -/
def Obligations.PopcCountsTheOneBits : Prop :=
  ∃ ones : Word → Nat, ones 0#32 = 0
    ∧ (∀ (w : Word) (k : Nat), k < 32 → w.getLsbD k = true → ones w = ones (w &&& ~~~(1#32 <<< k)) + 1)
    ∧ Computes .popc anyBuild (fun _ b => BitVec.ofNat 32 (ones b)) fun _ b _ => zn (BitVec.ofNat 32 (ones b)) false false

/-- ROL (41_alu.md R171): bit `i` of `a` goes to bit `i + b` modulo 32. That only `b` modulo 32 counts is the spec's D12, C and
V its D8 (log entry 13). -/
def Obligations.RolRotatesLeft : Prop :=
  ∃ rol : Word → Word → Word, (∀ (a b : Word) (i : Nat), i < 32 → (rol a b).getLsbD ((i + b.toNat) % 32) = a.getLsbD i)
    ∧ Computes .rol anyBuild rol fun a b _ => zn (rol a b) false false

/-- LDILO (41_alu.md R168) keeps the upper half of `Ra` and takes the lower half of operand B; BREV (R169) reverses operand
B's bits. Neither sets a flag. That BREV sets none is the spec's D9 (log entry 15). -/
def Obligations.LdiloAndBrevKeepTheFlags : Prop :=
  (∃ low : Word → Word → Word, (∀ (a b : Word) (i : Nat), i < 32 →
      (low a b).getLsbD i = if i < 16 then b.getLsbD i else a.getLsbD i) ∧ Computes .ldilo anyBuild low keep)
  ∧ ∃ rev : Word → Word, (∀ (b : Word) (i : Nat), i < 32 → (rev b).getLsbD i = b.getLsbD (31 - i))
    ∧ Computes .brev anyBuild (fun _ b => rev b) keep

/-- CMP and TST (41_alu.md R172, R173): only the flags change, also when conditional and with `DR` = PC or CC. TST's C and V are
the spec's D8 (log entry 13). -/
def Obligations.CompareSetsOnlyFlags : Prop :=
  Compares .cmp (fun a b => zn (a - b) (decide (a.toNat < b.toNat))
    (a.getLsbD 31 != b.getLsbD 31 && (a - b).getLsbD 31 != a.getLsbD 31))
  ∧ Compares .tst fun a b => zn (a &&& b) false false

/-! ## MOV and LDI -/

/-- MOV (42_move_ldi.md R180): register plus offset into a register, no flags; in user mode A and B make no difference, in
supervisor mode they select the user set, whose PC and general registers are then plain storage. That A and B make no
difference in user mode is the spec's D34 (log entry 14). -/
def Obligations.MovMovesBetweenTheSets : Prop :=
  ∀ (s : State) (cnd : Cond) (a : Bool) (br : Reg) (x : Bool) (imm : BitVec 13) (v : Word),
    condHolds cnd (own s).flags = true →
    v = (if s.gie = false ∧ x = true then s.readIn true br else regValue s br) + imm.signExtend 32 →
    (s.gie = true ∨ a = false →
      (∀ n : Fin 14, exec (.mov (.gpr n) cnd a br x imm) s = .next (wrote s n v (own s).flags))
      ∧ exec (.mov .pc cnd a br x imm) s = .next (moved s v)
      ∧ exec (.mov .cc cnd a br x imm) s = .next ((passed s).writeReg .cc v))
    ∧ (s.gie = false ∧ a = true →
      (∀ n : Fin 14, exec (.mov (.gpr n) cnd a br x imm) s =
        .next { passed s with usr := { s.usr with r := s.usr.r.set n v } })
      ∧ exec (.mov .pc cnd a br x imm) s = .next { passed s with usr := { s.usr with pc := v } }
      ∧ exec (.mov .cc cnd a br x imm) s = .next ((passed s).writeIn true .cc v))

/-- LDI (42_move_ldi.md R181): the sign-extended immediate, unconditionally, no flags; a jump with `DR` = PC, a CC write with
`DR` = CC. -/
def Obligations.LdiLoadsTheImmediate : Prop :=
  ∀ (s : State) (imm : BitVec 23),
    (∀ n : Fin 14, exec (.ldi (.gpr n) imm) s = .next (wrote s n (imm.signExtend 32) (own s).flags))
    ∧ exec (.ldi .pc imm) s = .next (moved s (imm.signExtend 32))
    ∧ exec (.ldi .cc imm) s = .next ((passed s).writeReg .cc (imm.signExtend 32))

/-! ## Multiply and divide -/

/-- MPY, MPYUHI, MPYSHI (43_multiply.md R185 to R187): the low word of the product, the high word of the unsigned and of the
signed product. C and V are the spec's D8 (log entry 13). -/
def Obligations.MultipliesWriteTheProduct : Prop :=
  Computes .mpy (fun s => s.cfg.implementMpy ≠ 0) (fun a b => BitVec.ofNat 32 (a.toNat * b.toNat))
    (fun a b _ => zn (BitVec.ofNat 32 (a.toNat * b.toNat)) false false)
  ∧ Computes .mpyuhi (fun s => s.cfg.implementMpy ≠ 0) (fun a b => BitVec.ofNat 32 (a.toNat * b.toNat / 2 ^ 32))
    (fun a b _ => zn (BitVec.ofNat 32 (a.toNat * b.toNat / 2 ^ 32)) false false)
  ∧ Computes .mpyshi (fun s => s.cfg.implementMpy ≠ 0) (fun a b => BitVec.ofInt 32 (a.toInt * b.toInt / 2 ^ 32))
    fun a b _ => zn (BitVec.ofInt 32 (a.toInt * b.toInt / 2 ^ 32)) false false

/-- DIVU and DIVS with a nonzero denominator (44_divide.md R190, R191): the quotient, rounded toward zero; C and V are some
bits. Rounding and the case -2^31 / -1 are the spec's D13 from general knowledge (log entry 14). -/
def Obligations.DividesWriteTheQuotient : Prop :=
  Divides .divu (fun a b => BitVec.ofNat 32 (a.toNat / b.toNat))
  ∧ Divides .divs fun a b => BitVec.ofInt 32 (a.toInt.tdiv b.toInt)

/-- A denominator of 0 (60_exceptions.md R326): DivideByZero at the divide's own address, `Ra` and the flags unchanged; in
user mode DIVERR of uCC and the switch, in supervisor mode DIVERR of sCC and a halt. What stays unchanged is the spec's D14
(log entry 15). -/
def Obligations.DivideByZeroIsTaken : Prop :=
  ∀ (s : State) (dr : Reg) (cnd : Cond) (b : OpB), s.cfg.implementDivide = true → condHolds cnd (own s).flags = true →
    operandB s b = 0#32 →
    exec (.divu dr cnd b) s = .next (divZeroEntry s false) ∧ exec (.divs dr cnd b) s = .next (divZeroEntry s false)

/-- A multiply, a divide, a LOCK or a VLIW word whose unit is not built raises IllegalInstruction (30_encoding.md R114),
whatever its condition. The spec's own D4, D15 and D16 (log entry 15). -/
def Obligations.UnbuiltUnitsAreIllegal : Prop :=
  (∀ (s : State) (dr : Reg) (cnd : Cond) (b : OpB), s.cfg.implementMpy = 0 →
    ∀ mk ∈ multiplyRows, exec (mk dr cnd b) s = .next (illegalEntry s))
  ∧ (∀ (s : State) (dr : Reg) (cnd : Cond) (b : OpB), s.cfg.implementDivide = false →
    ∀ mk ∈ divideRows, exec (mk dr cnd b) s = .next (illegalEntry s))
  ∧ (∀ (s : State) (bit27 : Bool) (payload : BitVec 22), (s.cfg.implementLock = false ∨ s.cfg.pipelined = false) →
    exec (.lock bit27 payload) s = .next (illegalEntry s))
  ∧ ∀ (s : State) (c2 : Bool) (cnd : Cond2) (f g : Half), s.cfg.optVliw = false →
    exec (.vliw c2 cnd f g) s = .next (illegalEntry s)

/-! ## NOOP, BREAK, LOCK and the words no build has -/

/-- NOOP (45_noop_break_lock.md R195) only advances the PC; both encodings, with any payload, are NOOPs. That words with bit
27 = 0 are NOOPs too is the spec's own resolution C19 and D17 (log entry 15); the bit positions are its D2 (log entry 16). -/
def Obligations.NoopOnlyAdvances : Prop :=
  (∀ (s : State) (bit27 : Bool) (payload : BitVec 22), exec (.noop bit27 payload) s = .next (passed s))
  ∧ ∀ payload : BitVec 22, decode (0x7e000000#32 ||| payload.zeroExtend 32) = .noop true payload
    ∧ decode (0x76000000#32 ||| payload.zeroExtend 32) = .noop false payload

/-- BREAK (45_noop_break_lock.md R196; 60_exceptions.md R327, R328): in user mode with BREAK_EN = 0, UBREAK and the switch to
supervisor mode, the user PC at the BREAK; else HALTED, the PC at the BREAK, the mode as it was, no CC bit but PHASE = 0. The
saved PC is the spec's D35, PHASE its D28 (log entries 15, 18). -/
def Obligations.BreakSwitchesOrHalts : Prop :=
  (∀ (s : State) (bit27 : Bool) (payload : BitVec 22),
    (s.gie = true → s.breakEn = false →
      exec (.brk bit27 payload) s = .next (entered { s with ubreak := true } s.usr.pc false))
    ∧ (s.gie = false ∨ s.breakEn = true →
      exec (.brk bit27 payload) s =
        .next { withOwn s { own s with phase := false } with halted := true, lockLeft := 0 }))
  ∧ decode 0x7e400000#32 = .brk true 0#22 ∧ decode 0x76400000#32 = .brk false 0#22

/-- LOCK (45_noop_break_lock.md R197): past it, three instructions are to run locked. While any is left the interrupt is not
taken, no DMA burst moves, no other master writes, also between the halves of a VLIW word, and until the CPU waits or stops in it
no access of the host at the debug port is made but a reset (70_reset_and_hazards.md R400); every further instruction counts one
down. The three instructions are the spec's D26 from general knowledge (log entries
14, 30); that the host's access is put off is the model's (log entry 26). -/
def Obligations.LockHoldsTheBus : Prop :=
  (∀ (s : State) (bit27 : Bool) (payload : BitVec 22), s.cfg.implementLock = true → s.cfg.pipelined = true →
    exec (.lock bit27 payload) s = .next { passed s with lockLeft := 3 })
  ∧ (∀ s : State, s.lockLeft ≠ 0 → s.takesInterrupt = false ∧ s.dmaMove = s ∧ (∀ p, s.masterWrite p = s) ∧ s.grantBus = s
    ∧ (s.halted = false → s.sleep = false → (∀ w, s.cur.host = some (.writeCtrl w) → w.getLsbD 6 = false) →
      s.hostAccess = some (s, false)))
  ∧ (∀ (s : State) (w : Word), s.cur.host = some (.writeCtrl w) → w.getLsbD 6 = true → s.hostAccess = some (s.writeCtrl w))
  ∧ (∀ (s : State) (bit27 : Bool) (payload : BitVec 22), s.lockStep (.lock bit27 payload) = s)
  ∧ ∀ (s : State) (i : Instr), (∀ bit27 payload, i ≠ .lock bit27 payload) →
    s.lockStep i = { s with lockLeft := s.lockLeft - 1 }

/-- The floating-point opcodes and the undefined NOOP space (46_floating_point.md R200; 45_noop_break_lock.md R198): always
IllegalInstruction, whatever the operands, payload and condition. The spec's own D15, D16 and D17 (log entry 15). -/
def Obligations.UnbuiltOpcodesAreIllegal : Prop :=
  (∀ mk ∈ unbuiltRows, ∀ (s : State) (dr : Reg) (cnd : Cond) (b : OpB), exec (mk dr cnd b) s = .next (illegalEntry s))
  ∧ ∀ mk ∈ undefinedGroupRows, ∀ (s : State) (bit27 : Bool) (payload : BitVec 22),
    exec (mk bit27 payload) s = .next (illegalEntry s)

/-- Opcodes 5'h18 to 5'h1f, by the word (46_floating_point.md R201, R202): NOOP, BREAK, LOCK with `DR` = 14 or 15 and
selectors 0, 1, 2; every other such word is illegal. The spec's own D16 and D17 (log entry 15). -/
def Obligations.FloatingPointSpaceByWord : Prop :=
  ∀ w : Word, w.getLsbD 31 = false → w.extractLsb' 25 2 = 3#2 →
    (w.extractLsb' 28 3 = 7#3 → w.extractLsb' 22 3 = 0#3 → decode w = .noop (w.getLsbD 27) (w.extractLsb' 0 22))
    ∧ (w.extractLsb' 28 3 = 7#3 → w.extractLsb' 22 3 = 1#3 → decode w = .brk (w.getLsbD 27) (w.extractLsb' 0 22))
    ∧ (w.extractLsb' 28 3 = 7#3 → w.extractLsb' 22 3 = 2#3 → decode w = .lock (w.getLsbD 27) (w.extractLsb' 0 22))
    ∧ (¬(w.extractLsb' 28 3 = 7#3 ∧ (w.extractLsb' 22 3).toNat ≤ 2) →
        ∀ s : State, exec (decode w) s = .next (illegalEntry s))

/-! ## Load and store -/

/-- LOD with no store in flight (47_load_store.md R210): the word the bus read answers at operand B's address, no flags; a jump
with `DR` = PC, a CC write with `DR` = CC; nothing else changes but what the read itself changes. From RAM that is the word of
memory, and nothing changes, memory included; so it is from ROM. A device answers some word, a free value (20_memory.md R78; log
entry 19), and a peripheral register what another statement says it reads as (60_exceptions.md R355). -/
def Obligations.LoadReadsMemory : Prop :=
  (∀ (s : State) (cnd : Cond) (b : OpB), condHolds cnd (own s).flags = true → s.posted = none →
    s.ramReady (operandB s b) →
    (∀ n : Fin 14, exec (.lod (.gpr n) cnd b) s = .next (wrote s n (Memory.fetch s.mem (operandB s b)) (own s).flags))
    ∧ exec (.lod .pc cnd b) s = .next (moved s (Memory.fetch s.mem (operandB s b)))
    ∧ exec (.lod .cc cnd b) s = .next ((passed s).writeReg .cc (Memory.fetch s.mem (operandB s b))))
  ∧ (∀ (s t : State) (cnd : Cond) (b : OpB) (v : Word), condHolds cnd (own s).flags = true → s.posted = none →
    s.busRead (operandB s b) = (some v, t) →
    (∀ n : Fin 14, exec (.lod (.gpr n) cnd b) s = .next (wrote t n v (own t).flags))
    ∧ exec (.lod .pc cnd b) s = .next (moved t v)
    ∧ exec (.lod .cc cnd b) s = .next ((passed t).writeReg .cc v))
  ∧ (∀ (s : State) (a : Word) (errs : Bool), s.answersAs a (.rom errs) → s.busRead a = (some (Memory.fetch s.mem a), s))
  ∧ (∀ (s : State) (a : Word), s.answersAs a .device → ∃ v, s.busRead a = (some v, { s with draws := s.draws + 1 }))
  ∧ ∀ (s : State) (k : Nat), s.cfg.periphBase = 0xc0000000#32 → HasRegister s.cfg k → s.calm (registerAddress k) →
    ∃ v, s.busRead (registerAddress k) = (some v, s)

/-- LOD whose bus read fails (47_load_store.md R210; 60_exceptions.md R325): BusError at the LOD's own address, `Ra` unchanged. A
read fails exactly if the bus watchdog ends it, and then WBU holds the address (R362), if the slave raises ERR, or if nothing
answers, in the peripheral space too, and in the ZipBones in all of that space (20_memory.md R76, R79). The watchdog ends, in the
ZipSystem, a transaction that takes more clocks than BUS_WATCHDOG_COUNT. Any transaction may fail: each of several with one address
in a step has an outcome of its own, the last clause says. The saved PC is the spec's D21 (log entry 15), that addresses of the
space without a register fail in the ZipSystem its reading (entry 20); the form of the environment's choice is the model's (entry
21). -/
def Obligations.LoadBusErrorIsTaken : Prop :=
  (∀ (s t : State) (dr : Reg) (cnd : Cond) (b : OpB), condHolds cnd (own s).flags = true → s.posted = none →
    s.busRead (operandB s b) = (none, t) → exec (.lod dr cnd b) s = .next (busErrorEntry t false))
  ∧ (∀ (s : State) (dr : Reg) (cnd : Cond) (b : OpB), s.cfg.periphBase = 0xc0000000#32 →
    condHolds cnd (own s).flags = true → s.posted = none → BusFails s (operandB s b) →
    exec (.lod dr cnd b) s = .next (busErrorEntry (failed s (operandB s b)) false))
  ∧ (∀ (s : State) (a : Word), s.cfg.periphBase = 0xc0000000#32 →
    ((s.busRead a).1 = none ↔ BusFails s a) ∧ (BusFails s a → s.busRead a = (none, failed s a)))
  ∧ (∀ (cfg : Config) (a : Word), cfg.container = .zipBones → 0xc0000000 ≤ a.toNat → NothingAt cfg a)
  ∧ (∀ (s : State) (a : Word), s.timesOut a = true → (failed s a).per.wbu = a)
  ∧ (∀ (s : State) (a : Word), s.timesOut a = true ↔
    s.cfg.container = .zipSystem ∧ ∃ n, ⟨a, 0, .clocks n⟩ ∈ s.cur.fates ∧ s.cfg.busWatchdogCount < n)
  ∧ ∀ (s : State) (a : Word), (∃ l, s.turn a = { s with cur := { s.cur with fates := l } })
    ∧ ∀ f : BusFate, f ∈ (s.turn a).cur.fates ↔ (if f.addr = a then { f with after := f.after + 1 } else f) ∈ s.cur.fates

/-- STO with no store in flight (47_load_store.md R211): `Ra` is posted for operand B's address and the PC advances; memory
and every register stay. When the posted store lands in RAM it changes that one word; on a peripheral register, what a bus write of
that register changes (60_exceptions.md R355; another statement's) and no memory; in a device, or in ROM that loses its writes,
nothing. Posting is the spec's D29 (log entry 9); what ROM and devices do with a write is the model's (entry 19). -/
def Obligations.StorePostsOneWord : Prop :=
  (∀ (s : State) (dr : Reg) (cnd : Cond) (b : OpB), condHolds cnd (own s).flags = true → s.posted = none →
    exec (.sto dr cnd b) s = .next { passed s with posted := some (operandB s b, regValue s dr) })
  ∧ (∀ (s : State) (a v : Word), s.posted = some (a, v) → s.ramReady a →
    ∃ m, s.drainPosted = (true, { s with posted := none, mem := m })
      ∧ Memory.fetch m a = v ∧ ∀ x, x ≠ a → Memory.fetch m x = Memory.fetch s.mem x)
  ∧ (∀ (s : State) (k : Nat) (v : Word), s.posted = some (registerAddress k, v) → s.cfg.periphBase = 0xc0000000#32 →
    HasRegister s.cfg k → s.calm (registerAddress k) →
    ∃ p, s.drainPosted = (true, { s with posted := none, per := p })
      ∧ ({ s with posted := none } : State).busWrite (registerAddress k) v = (true, { s with posted := none, per := p }))
  ∧ ∀ (s : State) (a v : Word), s.posted = some (a, v) → (s.answersAs a .device ∨ s.answersAs a (.rom false)) →
    s.drainPosted = (true, { s with posted := none })

/-- A LOD or STO waits for the store in flight (20_memory.md R81, R83), wherever it goes: it runs as if that store had landed
first. In RAM the store has then changed its word. -/
def Obligations.MemoryInstructionsWaitForTheStore : Prop :=
  (∀ (s t : State) (dr : Reg) (cnd : Cond) (b : OpB), condHolds cnd (own s).flags = true → s.drainPosted = (true, t) →
    exec (.lod dr cnd b) s = exec (.lod dr cnd b) t ∧ exec (.sto dr cnd b) s = exec (.sto dr cnd b) t)
  ∧ ∀ (s : State) (dr : Reg) (cnd : Cond) (b : OpB) (a v : Word), condHolds cnd (own s).flags = true →
    s.posted = some (a, v) → s.ramReady a →
    exec (.lod dr cnd b) s = exec (.lod dr cnd b) { s with posted := none, mem := Memory.write s.mem a.toNat v }
    ∧ exec (.sto dr cnd b) s = exec (.sto dr cnd b) { s with posted := none, mem := Memory.write s.mem a.toNat v }

/-- A load sees the latest store of the program to its address (20_memory.md R84 (1)): STO of `Rn` and then LOD into `Rm`, any
two spellings of one RAM address, leave `Rm` = `Rn`, and every other word of memory as it was. -/
def Obligations.LoadSeesTheEarlierStore : Prop :=
  ∀ (s : State) (n m : Fin 14) (b c : OpB), s.posted = none → s.ramReady (operandB s b) →
    operandB (passed s) c = operandB s b →
    ∃ t u, exec (.sto (.gpr n) .always b) s = .next t ∧ exec (.lod (.gpr m) .always c) t = .next u
      ∧ (own u).r[m] = (own s).r[n] ∧ ∀ x, x ≠ operandB s b → Memory.fetch u.mem x = Memory.fetch s.mem x

/-- The bus error of a posted store arrives late (47_load_store.md R213; 60_exceptions.md R314, R325). A store fails if its bus
write fails, also where no register is, or if it goes to ROM that errs; after a time-out WBU holds the address (R362), and no memory
has changed. At the end of a step the mode then running takes BusError with its PC unchanged; a LOD or STO that waits for the store
does not run, and BusError is taken at its address. Until the environment lets it land the store stays in flight, also while the CPU
sleeps (20_memory.md R82). A halted CPU keeps the error, and takes it when it is released, before anything else. When and where it
is reported is the spec's D31; the waiting instruction and the halted case are the model's (log entry 9), ROM that errs is entry
19's, the form of the environment's choice entry 21's. -/
def Obligations.StoreBusErrorArrivesLate : Prop :=
  (∀ (s : State) (a v : Word), s.posted = some (a, v) → s.cfg.periphBase = 0xc0000000#32 →
    (BusFails { s with posted := none } a ∨ (inPeriphSpace a = false ∧ kindAt s.cfg a = some (.rom true))) →
    s.drainPosted = (false, failed { s with posted := none } a))
  ∧ (∀ s t : State, s.drainPosted = (false, t) →
    t.posted = none ∧ t.mem = s.mem
    ∧ (s.halted = false → s.cur.drain = true → s.settleStore = storeErrorEntry t)
    ∧ (s.halted = false → s.cur.drain = false → s.settleStore = s)
    ∧ (s.halted = true → s.settleStore = { t with storeErr := true })
    ∧ ∀ (dr : Reg) (cnd : Cond) (b : OpB), condHolds cnd (own s).flags = true →
      exec (.lod dr cnd b) s = .next (busErrorEntry t false) ∧ exec (.sto dr cnd b) s = .next (busErrorEntry t false))
  ∧ ∀ s : State, s.halted = false → s.storeErr = true → s.posted = none → s.cpu false = .next (storeErrorEntry s)

/-! ## VLIW words -/

/-- A VLIW word inside the domain (48_vliw.md R225, R226, R228) does what its two instructions would do as words of their own
at the word's address, one after the other: the first under the condition, the second under it if C2 = 1, on the registers and
flags the first left; the PC is then past the word, or where the second half jumped. An LDI is subject to the condition like any
other half. Before a second half that accesses memory executes, the first half's store has landed and other masters may have had
the bus (20_memory.md R75). That a LOD or STO half with select bit 0 has an absolute address in -8..7 is the model's choice, which
48_vliw.md R224 leaves to it (log entry 42). The layout and the reading of PC are the spec's D3 and D5 (log entries 15, 16); who has
the bus between the halves is the environment's (log entry 41). The last clause says of LDI and NOOP, in every state, that the word
completes. -/
def Obligations.VliwRunsBothHalves : Prop :=
  (∀ (s : State) (c2 : Bool) (cnd : Cond2) (f g : Half) (i j : State → Host.Outcome State Fault Refusal),
      s.cfg.optVliw = true → s.posted = none → AdmittedFirst f →
      wholeOf f (widen cnd) = some i → wholeOf g (if c2 then widen cnd else .always) = some j →
      Runs s f → (∀ t, i s = .next t → Runs (moved t (own s).pc) g) →
      ∃ t u, i s = .next t
        ∧ j (moved (handed t (condHolds (if c2 then widen cnd else .always) (own t).flags) g) (own s).pc) = .next u
        ∧ exec (.vliw c2 cnd f g) s = .next u)
  ∧ ∀ (s : State) (cnd : Cond2) (n : Fin 14) (imm rsvd : BitVec 5) (bit : Bool), s.cfg.optVliw = true →
    exec (.vliw false cnd (.ldi (.gpr n) false imm) (.group bit 0#3 rsvd)) s =
      .next (if condHolds (widen cnd) (own s).flags then wrote s n (imm.signExtend 32) (own s).flags else passed s)

/-- Exceptions inside a VLIW word (48_vliw.md R230, R231): a divide by zero, and the bus error of a LOD. Of the first half, the
second does not run, PHASE is set; of the second, the first half stands, PHASE is clear; the saved PC is the word's. The spec's own
D28 (log entry 15). The bus read of a LOD in the second half comes after the first half's store and other masters' part (entry 41).
If the first half is a STO and the second half, a LOD or STO, meets its bus error, the second half does not run and PHASE is set: the
model's choice (entry 10). -/
def Obligations.VliwDivideByZero : Prop :=
  ∀ (s : State) (c2 : Bool) (cnd : Cond2) (f g : Half) (b : HalfB), s.cfg.optVliw = true → s.posted = none →
    cond2Holds cnd (own s).flags = true →
    (Built s g → (wholeOf g .always).isSome = true → ∀ n : Fin 14,
      (s.cfg.implementDivide = true → halfOperand s b = 0#32 →
        exec (.vliw c2 cnd (.std .divu (.gpr n) b) g) s = .next (divZeroEntry s true)
        ∧ exec (.vliw c2 cnd (.std .divs (.gpr n) b) g) s = .next (divZeroEntry s true))
      ∧ ∀ t, s.busRead (halfOperand s b) = (none, t) →
        exec (.vliw c2 cnd (.std .lod (.gpr n) b) g) s = .next (busErrorEntry t true))
    ∧ (∀ (i : State → Host.Outcome State Fault Refusal) (t : State) (dr : Reg), AdmittedFirst f → Runs s f →
      wholeOf f (widen cnd) = some i → i s = .next t → (c2 = false ∨ cond2Holds cnd (own t).flags = true) →
      (s.cfg.implementDivide = true → halfOperand (moved t (own s).pc) b = 0#32 →
        exec (.vliw c2 cnd f (.std .divu dr b)) s = .next (divZeroEntry (moved t (own s).pc) false)
        ∧ exec (.vliw c2 cnd f (.std .divs dr b)) s = .next (divZeroEntry (moved t (own s).pc) false))
      ∧ ∀ u, (handed t true (.std .lod dr b)).busRead (halfOperand (moved t (own s).pc) b) = (none, u) →
        exec (.vliw c2 cnd f (.std .lod dr b)) s = .next (busErrorEntry (moved u (own s).pc) false))
    ∧ ∀ (dr dr' : Reg) (b' : HalfB) (u : State),
      ({ passed s with posted := some (halfOperand s b, regValue s dr) } : State).drainPosted = (false, u) →
      ∀ op ∈ [StdOp.lod, StdOp.sto],
        exec (.vliw c2 cnd (.std .sto dr b) (.std op dr' b')) s = .next (busErrorEntry (moved u (own s).pc) true)

/-- What a VLIW word stops on. A word with an illegal half is illegal whatever its conditions, and neither half runs
(48_vliw.md R222, R230); with legal halves it is refused exactly where R232 puts it outside the model's domain. The spec's own
D28; that an illegal half comes first is the model's choice (log entry 11). -/
def Obligations.VliwIllegalAndRefused : Prop :=
  (∀ (s : State) (c2 : Bool) (cnd : Cond2) (f g : Half), ¬Built s f ∨ ¬Built s g →
      exec (.vliw c2 cnd f g) s = .next (illegalEntry s))
  ∧ ∀ (s : State) (c2 : Bool) (cnd : Cond2) (f g : Half), s.cfg.optVliw = true → Built s f → Built s g →
    ((∃ r, exec (.vliw c2 cnd f g) s = .refused r) ↔
      (¬AdmittedFirst f
        ∨ (∃ bit sel rsvd, (f = .group bit sel rsvd ∨ g = .group bit sel rsvd) ∧ sel ≠ 0#3)
        ∨ (∃ dr imm, f = .mov dr (.imm imm) ∨ g = .mov dr (.imm imm))
        ∨ (∃ dr imm, f = .ldi dr true imm ∨ g = .ldi dr true imm)))

/-! ## The status register -/

/-- What CC reads as (10_state.md R47), bit by bit, in each set; an instruction that reads CC reads its own mode's, with the flags
the instruction before left. That SLEEP is one bit shown in both registers, and TRAP shown in sCC too, is from general knowledge
(log entry 14); bits 31..16 are the spec's D20 and PHASE its D28 (log entry 15). -/
def Obligations.CcReadsTheFields : Prop :=
  ∀ s : State,
    s.readCC false = BitVec.ofNat 32 (s.cfg.ccUpper.toNat * 2 ^ 16 + s.sup.phase.toNat * 2 ^ 13 + s.sup.fpErr.toNat * 2 ^ 12
      + s.sup.divErr.toNat * 2 ^ 11 + s.sup.busErr.toNat * 2 ^ 10 + s.trap.toNat * 2 ^ 9 + s.sup.ill.toNat * 2 ^ 8
      + s.breakEn.toNat * 2 ^ 7 + s.sleep.toNat * 2 ^ 4 + s.sup.flags.v.toNat * 2 ^ 3 + s.sup.flags.n.toNat * 2 ^ 2
      + s.sup.flags.c.toNat * 2 + s.sup.flags.z.toNat)
    ∧ s.readCC true = BitVec.ofNat 32 (s.cfg.ccUpper.toNat * 2 ^ 16 + s.usr.phase.toNat * 2 ^ 13 + s.usr.fpErr.toNat * 2 ^ 12
      + s.usr.divErr.toNat * 2 ^ 11 + s.usr.busErr.toNat * 2 ^ 10 + s.trap.toNat * 2 ^ 9 + s.usr.ill.toNat * 2 ^ 8
      + s.ubreak.toNat * 2 ^ 7 + s.stepBit.toNat * 2 ^ 6 + 2 ^ 5 + s.sleep.toNat * 2 ^ 4 + s.usr.flags.v.toNat * 2 ^ 3
      + s.usr.flags.n.toNat * 2 ^ 2 + s.usr.flags.c.toNat * 2 + s.usr.flags.z.toNat)
    ∧ ∀ n : Fin 14, exec (.mov (.gpr n) .always false .cc false 0#13) s = .next (wrote s n (s.readCC s.gie) (own s).flags)

/-- A user-mode write of CC (10_state.md R48, first column; 60_exceptions.md R322), `s` being past the instruction: the user
flags; with bit 5 set SLEEP from bit 4; with bit 5 clear a trap, SLEEP clear whatever bit 4. That the trap's write lands on
the flags is from general knowledge (log entry 14). Which fields a write changes is the spec's D19 (log entry 15). -/
def Obligations.UserWriteOfCc : Prop :=
  ∀ (s : State) (v : Word), s.gie = true →
    s.writeReg .cc v =
      if v.getLsbD 5 then
        { s with
          usr := { s.usr with flags := ⟨v.getLsbD 0, v.getLsbD 1, v.getLsbD 2, v.getLsbD 3⟩ }
          sleep := v.getLsbD 4 }
      else
        { entered { s with usr := { s.usr with flags := ⟨v.getLsbD 0, v.getLsbD 1, v.getLsbD 2, v.getLsbD 3⟩ } }
            s.usr.pc false with trap := true }

/-- A supervisor-mode write of sCC (10_state.md R48, second column; 60_exceptions.md R340, R351), `s` being past the
instruction: flags, SLEEP, STEP, BREAK_EN from the value, cause bits cleared where it has 0, the cache emptied by bit 14; bit
5 returns to user mode and clears uCC's cause bits; else bit 4 halts and ends a locked sequence. Which fields a write changes is
the spec's D19 (log entry 15), that the halt ends the lock the model's (log entry 30). -/
def Obligations.SupervisorWriteOfScc : Prop :=
  ∀ (s : State) (v : Word), s.gie = false →
    s.writeReg .cc v =
      if v.getLsbD 5 then returned (sccWritten s v)
      else if v.getLsbD 4 && !s.halted then
        { sccWritten s v with sup := { (sccWritten s v).sup with phase := false }, halted := true, lockLeft := 0 }
      else sccWritten s v

/-- A supervisor-mode MOV to uCC (10_state.md R48, third column): the user flags, SLEEP and STEP from the value, UBREAK,
BUSERR and DIVERR of uCC cleared where it has 0; TRAP, ILL and PHASE stay; SLEEP halts. That it writes SLEEP is from general
knowledge (log entry 14). Which fields a write changes is the spec's D19 (log entry 15), that the halt ends a locked sequence the
model's (log entry 30). -/
def Obligations.SupervisorMoveToUcc : Prop :=
  ∀ (s : State) (v : Word), s.gie = false →
    s.writeIn true .cc v =
      if v.getLsbD 4 && !s.halted then
        { uccWritten s v with sup := { s.sup with phase := false }, halted := true, lockLeft := 0 }
      else uccWritten s v

/-! ## Modes, interrupts, waiting, stepping, halting -/

/-- The interrupt (60_exceptions.md R312, R320): in user mode, input high and seen, outside a locked sequence, the step is the
switch to supervisor mode with the user PC at the next instruction; no instruction runs and no cause bit is set. No store is
in flight. The input is the primary controller's output in the ZipSystem (R356), the one wire in the ZipBones (R311); in
supervisor mode it is ignored (R312). A high input is seen where the environment says so, and stays seen until it falls; one
that is high at the boundary before a return to user mode and after it is taken there, before any user instruction and whatever
the environment says (R341). When an input is seen is the environment's (the spec's D22, D23, log entry 29); PHASE, never set in
user mode, is the spec's D28. -/
def Obligations.InterruptSwitchesMode : Prop :=
  (∀ s : State, Undisturbed s → (ready s).halted = false → (ready s).storeErr = false → (ready s).gie = true →
      (ready s).irq = true → (ready s).irqSeen = true → (ready s).lockLeft = 0 → (ready s).posted = none →
      step s = .next (entered (ready s) (ready s).usr.pc false))
  ∧ (∀ s : State, s.look.irqSeen = true ↔ s.irq = true ∧ (s.irqSeen = true ∨ s.cur.seeIrq = true ∨ s.gie = false))
  ∧ (∀ s u : State, Undisturbed s → (ready s).gie = false → (ready s).irq = true → step s = .next u →
      Undisturbed u → (ready u).halted = false → (ready u).storeErr = false → (ready u).gie = true →
      (ready u).irq = true → (ready u).lockLeft = 0 → (ready u).posted = none →
      step u = .next (entered (ready u) (ready u).usr.pc false))
  ∧ (∀ s : State, s.cfg.container = .zipSystem → (s.irq = true ↔ s.per.pic.mie = true ∧
    ∃ i, i < 15 ∧ s.per.pic.en.getLsbD i = true ∧ s.per.pic.st.getLsbD i = true))
  ∧ (∀ s : State, s.cfg.container = .zipBones → s.irq = s.ext.getLsbD 0)
  ∧ ∀ s : State, s.gie = false → s.takesInterrupt = false

/-- Waiting and halted. In user mode asleep, without an interrupt to take, the step is only the other agents' part, and the store
in flight lands or stays as the environment says (60_exceptions.md R350). Halted, the CPU executes nothing and takes no interrupt
(10_state.md R50): with the watchdog stopped and no store in flight every register, the mode and SLEEP stay. The other agents'
part of a step is the model's (log entries 7, 8). -/
def Obligations.WaitingAndHaltedExecuteNothing : Prop :=
  (∀ s : State, Undisturbed s → (ready s).halted = false → (ready s).storeErr = false → (ready s).gie = true →
      (ready s).sleep = true → (ready s).takesInterrupt = false →
      step s = .next (ready s).settleStore
      ∧ ((ready s).posted = none ∨ (ready s).cur.drain = false → step s = .next (ready s)))
  ∧ ∀ s : State, Undisturbed s → s.halted = true → s.posted = none → s.per.wdt.value = 0#31 →
    ∃ t, step s = .next t ∧ t.halted = true ∧ t.sup = s.sup ∧ t.usr = s.usr ∧ t.gie = s.gie ∧ t.sleep = s.sleep
      ∧ t.stepBit = s.stepBit ∧ t.breakEn = s.breakEn ∧ t.trap = s.trap ∧ t.ubreak = s.ubreak

/-- Single step (60_exceptions.md R346): an instruction that leaves the CPU running in user mode with STEP = 1 is followed by
the switch to supervisor mode, no cause bit set; STEP stays. No store is in flight after it. The saved PC is the spec's D21
(log entry 15). -/
def Obligations.StepBitSwitchesBack : Prop :=
  ∀ (s q u : State) (w : Word), Undisturbed s → Executing (ready s) → (ready s).gie = true →
    (ready s).fetch = (some w, q) → exec (decode w) (issued q w) = .next u →
    u.gie = true → u.stepBit = true → u.halted = false → u.posted = none →
    step s = .next (entered u u.usr.pc false)

/-- Nothing that executes in user mode touches the supervisor's set, STEP, BREAK_EN, HALTED (but for BREAK with BREAK_EN), the
instruction cache or the schedule, and TRAP, UBREAK and GIE change only on the way to supervisor mode (10_state.md R24, R48;
60_exceptions.md R301). -/
def Obligations.UserModeIsConfined : Prop :=
  ∀ (i : Instr) (s t : State), s.gie = true → exec i s = .next t →
    t.sup = s.sup ∧ t.stepBit = s.stepBit ∧ t.breakEn = s.breakEn ∧ t.icache = s.icache ∧ t.cfg = s.cfg ∧ t.env = s.env
    ∧ (t.halted = s.halted ∨ (s.breakEn = true ∧ ∃ bit27 payload, i = .brk bit27 payload))
    ∧ (t.gie = true → t.trap = s.trap ∧ t.ubreak = s.ubreak)

/-- No instruction faults, and none is refused but a VLIW word that 48_vliw.md R232 puts outside the domain. -/
def Obligations.OnlyVliwIsRefused : Prop :=
  ∀ (i : Instr) (s : State), (∀ r, exec i s ≠ .fault r)
    ∧ ∀ r, exec i s = .refused r → ∃ c2 cnd f g, i = .vliw c2 cnd f g ∧ vliwRefusal f g = some r

/-- The other agents leave the CPU alone (20_memory.md R93; 70_reset_and_hazards.md R422): with the watchdog stopped, no
register, mode, status or hidden CPU state but the cache changes while they act. What they may do at a step is the model's
environment (log entries 7, 8, 41). -/
def Obligations.OtherAgentsLeaveTheCpu : Prop :=
  ∀ s : State, s.per.wdt.value = 0#31 →
    s.agents.sup = s.sup ∧ s.agents.usr = s.usr ∧ s.agents.gie = s.gie ∧ s.agents.sleep = s.sleep
    ∧ s.agents.stepBit = s.stepBit ∧ s.agents.breakEn = s.breakEn ∧ s.agents.ubreak = s.ubreak
    ∧ s.agents.trap = s.trap ∧ s.agents.halted = s.halted ∧ s.agents.lockLeft = s.lockLeft
    ∧ s.agents.posted = s.posted ∧ s.agents.storeErr = s.storeErr ∧ s.agents.cfg = s.cfg

/-! ## Reset -/

/-- The state after reset (70_reset_and_hazards.md R401, R402, R404): the values the spec gives, for any build. The table is the
spec's D25 and D33 (log entry 15). That a ZipBones too has START_HALTED is the model's choice, for R402 gives that parameter to the
ZipSystem alone (log entry 3). -/
def Obligations.ResetState : Prop :=
  State.reset = State.powerOn Config.standard
  ∧ ∀ cfg : Config,
    (State.powerOn cfg).sup.pc = cfg.resetAddress ∧ (State.powerOn cfg).sup.flags = ⟨false, false, false, false⟩
    ∧ (State.powerOn cfg).gie = false ∧ (State.powerOn cfg).sleep = false ∧ (State.powerOn cfg).stepBit = false
    ∧ (State.powerOn cfg).breakEn = false ∧ (State.powerOn cfg).ubreak = false ∧ (State.powerOn cfg).trap = false
    ∧ (∀ user, ((State.powerOn cfg).set user).ill = false ∧ ((State.powerOn cfg).set user).busErr = false
      ∧ ((State.powerOn cfg).set user).divErr = false ∧ ((State.powerOn cfg).set user).fpErr = false
      ∧ ((State.powerOn cfg).set user).phase = false)
    ∧ (State.powerOn cfg).halted = cfg.startHalted ∧ (State.powerOn cfg).lockLeft = 0 ∧ (State.powerOn cfg).icache = []
    ∧ (State.powerOn cfg).posted = none ∧ (State.powerOn cfg).storeErr = false ∧ (State.powerOn cfg).per.pic = ⟨false, 0#15, 0#15⟩
    ∧ (State.powerOn cfg).per.ctric = ⟨false, 0#15, 0#15⟩ ∧ (State.powerOn cfg).per.tmra = ⟨0#31, false, 0#31⟩
    ∧ (State.powerOn cfg).per.tmrb = ⟨0#31, false, 0#31⟩ ∧ (State.powerOn cfg).per.tmrc = ⟨0#31, false, 0#31⟩
    ∧ (State.powerOn cfg).per.wdt = ⟨0#31, false, 0#31⟩ ∧ (State.powerOn cfg).per.jiff.armed = false
    ∧ (State.powerOn cfg).per.dma.active = false ∧ (State.powerOn cfg).per.dma.err = false

/-- A reset of the running machine (70_reset_and_hazards.md R400, R401, R404), by `i_rst`, by the debug port's bit 6 and by
the watchdog: the same state, but for HALTED, which the debug write then makes its bit 10 (60 R372). The Jiffies and the accounting
counters are not cleared, and count the clocks of a step with `i_rst` high (R404). The table is the spec's D25 and D33; the store
in flight, bit 10 and the clocks of the step are the model's choices (log entries 6, 26, 32), and so is HALTED as START_HALTED in
every container, for R402 gives that parameter to the ZipSystem alone (log entry 3). -/
def Obligations.WarmReset : Prop :=
  (∀ s : State,
    s.warmReset.sup = { s.sup with
      pc := s.cfg.resetAddress, flags := ⟨false, false, false, false⟩, ill := false, busErr := false, divErr := false,
      fpErr := false, phase := false }
    ∧ s.warmReset.usr =
      { s.usr with ill := false, busErr := false, divErr := false, fpErr := false, phase := false }
    ∧ s.warmReset.gie = false ∧ s.warmReset.sleep = false ∧ s.warmReset.stepBit = false
    ∧ s.warmReset.breakEn = false ∧ s.warmReset.ubreak = false ∧ s.warmReset.trap = false
    ∧ s.warmReset.halted = s.cfg.startHalted ∧ s.warmReset.lockLeft = 0
    ∧ s.warmReset.icache = [] ∧ s.warmReset.posted = none ∧ s.warmReset.storeErr = false
    ∧ s.warmReset.per.jiff.now = s.per.jiff.now
    ∧ (s.posted = none → s.warmReset.per.counters = s.per.counters)
    ∧ (s.warmReset.mem = s.mem ∨ s.warmReset.mem = s.drainPosted.2.mem)
    ∧ s.warmReset.per.pic = ⟨false, 0#15, 0#15⟩ ∧ s.warmReset.per.ctric = ⟨false, 0#15, 0#15⟩
    ∧ s.warmReset.per.tmra = ⟨0#31, false, 0#31⟩ ∧ s.warmReset.per.tmrb = ⟨0#31, false, 0#31⟩
    ∧ s.warmReset.per.tmrc = ⟨0#31, false, 0#31⟩ ∧ s.warmReset.per.wdt = ⟨0#31, false, 0#31⟩
    ∧ s.warmReset.per.jiff.armed = false ∧ s.warmReset.per.dma.active = false
    ∧ s.warmReset.per.dma.err = false)
  ∧ (∀ (s r t : State), s.loadEnv.cur.reset = true → r = s.loadEnv.warmReset →
      t = State.clocks (s.loadEnv.cur.ticks + 1) r →
      step s = .next t ∧ t = { r with per := t.per }
      ∧ (s.cfg.container = .zipSystem →
        t.per.jiff.now = r.per.jiff.now + BitVec.ofNat 32 (s.loadEnv.cur.ticks + 1)
        ∧ (s.cfg.includeCounters = true →
          t.per.counters[0] = r.per.counters[0] + BitVec.ofNat 32 (s.loadEnv.cur.ticks + 1))))
  ∧ (∀ (s : State) (w : Word), w.getLsbD 6 = true → w.getLsbD 8 = false → w.getLsbD 11 = false →
      s.writeCtrl w = ({ ({ s with dbgAddr := w.extractLsb' 0 6 } : State).warmReset with halted := w.getLsbD 10 }, false))
  ∧ ∀ s : State, s.cfg.container = .zipSystem → s.per.wdt.value = 1#31 →
      s.clock = ({ s with per := (s.per.clock s.cfg s.gie s.extLines).1 } : State).warmReset

/-! ## The invariant -/

/-- EVERY STEP KEEPS THE INVARIANT of Safety.lean, from every state that has it, under every environment. Safety.lean names each
field's rule; the canonical form of memory and cache is the model's own (log entry 1). -/
def Obligations.StepKeepsTheInvariant : Prop := ∀ s t : State, s.Inv → step s = .next t → t.Inv

/-- The machine after reset has the invariant. -/
def Obligations.ResetHasTheInvariant : Prop := State.reset.Inv

/-! ## Peripherals -/

/-- The register map (60_exceptions.md R355; 20_memory.md R77) at the spec's base, for each of the twenty offsets what a bus read
answers and what a bus write leaves: 0 PIC, 1 WDT, 2 WBU (read-only), 3 CTRIC, 4 to 6 Timers A, B, C, 7 JIFF, in every ZipSystem; 8
to 15 the counters, 16 to 19 the DMA controller, where the build has them. Every other address of the space is a bus error, and
every one in the ZipBones. An access to a register completes where the environment has no trouble for its address (R362, in
the form of log entry 21). The base is the spec's D1; that every other address is a bus error is its own
reading against one vector (log entries 15, 20). The wires a controller's write sees high are log entry 22's, the watchdog's bit 31
entry 25's, busy writes and read-back of the DMA registers entry 24's. -/
def Obligations.PeripheralMap : Prop :=
  (∀ s : State, s.cfg.periphBase = 0xc0000000#32 → s.cfg.container = .zipSystem →
    RegisterAt s 0 (picWord s.per.pic) (fun w => { s.per with
      pic := s.per.pic.write w (s.extLines.extractLsb' 0 9 ++ BitVec.ofBool s.per.ctric.any ++ 0#5) })
    ∧ RegisterAt s 1 (timerWord s.per.wdt) (fun w => { s.per with wdt := { timerWritten w with reload := false } })
    ∧ RegisterAt s 2 s.per.wbu (fun _ => s.per)
    ∧ (∃ level : BitVec 15,
      (∀ i, i < 15 → level.getLsbD i = match s.cfg.ctricMap[i]? with
        | some (.ext line) => s.extLines.getLsbD line
        | _ => false)
      ∧ RegisterAt s 3 (picWord s.per.ctric) (fun w => { s.per with ctric := s.per.ctric.write w level }))
    ∧ RegisterAt s 4 (timerWord s.per.tmra) (fun w => { s.per with tmra := timerWritten w })
    ∧ RegisterAt s 5 (timerWord s.per.tmrb) (fun w => { s.per with tmrb := timerWritten w })
    ∧ RegisterAt s 6 (timerWord s.per.tmrc) (fun w => { s.per with tmrc := timerWritten w })
    ∧ RegisterAt s 7 s.per.jiff.now (fun w => { s.per with
      jiff := (s.per.jiff.write w).1, pic := pulsed s.per.pic 2#15 (s.per.jiff.write w).2 }))
  ∧ (∀ s : State, s.cfg.periphBase = 0xc0000000#32 → s.cfg.container = .zipSystem → s.cfg.includeCounters = true →
    ∀ k : Fin 8, RegisterAt s (8 + k.val) s.per.counters[k] (fun w => { s.per with counters := s.per.counters.set k w }))
  ∧ (∀ s : State, s.cfg.periphBase = 0xc0000000#32 → s.cfg.container = .zipSystem → s.cfg.includeDma = true →
    (∃ v : Word, RegisterAt s 16 v (fun w => { s.per with
        dma := (s.per.dma.writeCtrl w).1, pic := pulsed s.per.pic 1#15 (s.per.dma.writeCtrl w).2 })
      ∧ v.getLsbD 31 = s.per.dma.active ∧ v.getLsbD 30 = s.per.dma.err ∧ v.getLsbD 29 = s.per.dma.noIncSrc
      ∧ v.getLsbD 28 = s.per.dma.noIncDst ∧ v.getLsbD 27 = false
      ∧ v.extractLsb' 16 11 = BitVec.ofNat 11 s.per.dma.buffer.length ∧ v.getLsbD 15 = s.per.dma.trigger
      ∧ v.extractLsb' 10 5 = s.per.dma.line ∧ v.extractLsb' 0 10 = s.per.dma.chunk)
    ∧ RegisterAt s 17 (if s.cfg.dmaRunningReadback then s.per.dma.remaining else s.per.dma.len) (fun w =>
      if s.per.dma.active then s.per else { s.per with dma := { s.per.dma with len := w, remaining := w } })
    ∧ RegisterAt s 18 (if s.cfg.dmaRunningReadback then s.per.dma.curSrc else s.per.dma.src) (fun w =>
      if s.per.dma.active then s.per else { s.per with dma := { s.per.dma with src := w, curSrc := w } })
    ∧ RegisterAt s 19 (if s.cfg.dmaRunningReadback then s.per.dma.curDst else s.per.dma.dst) (fun w =>
      if s.per.dma.active then s.per else { s.per with dma := { s.per.dma with dst := w, curDst := w } }))
  ∧ ∀ (s : State) (a w : Word), s.cfg.periphBase = 0xc0000000#32 → 0xc0000000 ≤ a.toNat →
    (s.cfg.container = .zipBones ∨ 0xc0000014 ≤ a.toNat
      ∨ (s.cfg.includeCounters = false ∧ 0xc0000008 ≤ a.toNat ∧ a.toNat < 0xc0000010)
      ∨ (s.cfg.includeDma = false ∧ 0xc0000010 ≤ a.toNat)) →
    s.busRead a = (none, failed s a) ∧ s.busWrite a w = (false, failed s a)

/-- The interrupt controller (60_exceptions.md R356): a write clears the states with a 1 (unless their line is high), and adds
or removes enables as bit 31 says, which becomes MIE; a read shows MIE, the enables, the output and the states. At a clock the
state of each line that a peripheral pulses or a wire holds is tripped, enabled or not, and no state falls (R358; the line
numbers are the spec's D32, log entry 22). That a line held high trips again at a write is R356's level rule (log entry 22).
-/
def Obligations.InterruptController : Prop :=
  ((∀ (p : Pic) (w : Word) (level : BitVec 15), (p.write w level).mie = w.getLsbD 31
      ∧ ∀ i, i < 15 →
        (p.write w level).st.getLsbD i = ((p.st.getLsbD i && !w.getLsbD i) || level.getLsbD i)
        ∧ (p.write w level).en.getLsbD i =
          (if w.getLsbD 31 then p.en.getLsbD i || w.getLsbD (16 + i) else p.en.getLsbD i && !w.getLsbD (16 + i)))
    ∧ ∀ p : Pic, p.read.getLsbD 31 = p.mie ∧ p.read.getLsbD 15 = p.any
      ∧ ∀ i, i < 15 → p.read.getLsbD (16 + i) = p.en.getLsbD i ∧ p.read.getLsbD i = p.st.getLsbD i)
  ∧ ∀ (p : Periph) (cfg : Config) (gie : Bool) (ext : BitVec 24),
    (∀ i, i < 15 → p.pic.st.getLsbD i = true → (p.clock cfg gie ext).1.pic.st.getLsbD i = true)
    ∧ (p.jiff.tick.2 = true → (p.clock cfg gie ext).1.pic.st.getLsbD 1 = true)
    ∧ (p.tmrc.tick.2 = true → (p.clock cfg gie ext).1.pic.st.getLsbD 2 = true)
    ∧ (p.tmrb.tick.2 = true → (p.clock cfg gie ext).1.pic.st.getLsbD 3 = true)
    ∧ (p.tmra.tick.2 = true → (p.clock cfg gie ext).1.pic.st.getLsbD 4 = true)
    ∧ ((p.clock cfg gie ext).1.ctric.any = true → (p.clock cfg gie ext).1.pic.st.getLsbD 5 = true)
    ∧ ∀ i, i < 9 → ext.getLsbD i = true → (p.clock cfg gie ext).1.pic.st.getLsbD (6 + i) = true

/-- A timer (60_exceptions.md R360): written with count `n` it stands at `n - k` after `k` clocks without a pulse, and the
`n`-th clock pulses its line and leaves the interval again if bit 31 was written, else 0. Written with 0 it stays. What a
count written as 0 or as all ones does is log entry 25's. -/
def Obligations.TimerCountsDown : Prop :=
  (∀ (w : Word) (k : Nat), k < (w.extractLsb' 0 31).toNat →
    (ticks k (Timer.write w)).value.toNat = (w.extractLsb' 0 31).toNat - k
    ∧ ((ticks k (Timer.write w)).tick.2 = true ↔ k + 1 = (w.extractLsb' 0 31).toNat))
  ∧ (∀ w : Word, w.extractLsb' 0 31 ≠ 0#31 →
    (ticks (w.extractLsb' 0 31).toNat (Timer.write w)).value = if w.getLsbD 31 then w.extractLsb' 0 31 else 0#31)
  ∧ ∀ t : Timer, t.value = 0#31 → t.tick = (t, false)

/-- The Jiffies (60_exceptions.md R363): it counts every clock; an armed time that is reached pulses once; a written time that
is not in the future pulses at once, and of two times the nearer is kept. That a time equal to the counter is past is not in the
source (N26): it is the spec's own choice, in R363's last sentence and U22 (log entry 25). -/
def Obligations.JiffiesKeepTheNearestTime : Prop :=
  (∀ j : Jiffies, j.tick.1.now = j.now + 1#32
    ∧ (j.tick.2 = true ↔ j.armed = true ∧ j.now + 1#32 = j.when_) ∧ (j.tick.2 = true → j.tick.1.armed = false))
  ∧ ∀ (j : Jiffies) (w : Word),
    ((j.write w).2 = true ↔ (w - j.now).toInt ≤ 0)
    ∧ ((j.write w).2 = true → (j.write w).1 = j)
    ∧ (0 < (w - j.now).toInt → (j.write w).1.armed = true ∧ (j.write w).1.now = j.now
        ∧ (j.write w).1.when_ = if j.armed = false ∨ (w - j.when_).toInt < 0 then w else j.when_)

/-- The accounting counters (60_exceptions.md R364, R365): a clock adds one to MTASK, and to UTASK in user mode only; an
issued instruction adds one to MICNT and, in user mode only, to UICNT; a count past 0xffffffff wraps and reports a roll-over.
The watchdog is stopped. How VLIW words count is log entry 23's. -/
def Obligations.CountersCount : Prop :=
  (∀ s : State, s.cfg.container = .zipSystem → s.cfg.includeCounters = true → s.per.wdt.value = 0#31 →
    s.clock.per.counters[0] = s.per.counters[0] + 1#32
    ∧ s.clock.per.counters[4] = (if s.gie then s.per.counters[4] + 1#32 else s.per.counters[4])
    ∧ s.clock.per.counters[3] = s.per.counters[3] ∧ s.clock.per.counters[7] = s.per.counters[7])
  ∧ (∀ (s : State) (user : Bool), s.cfg.container = .zipSystem → s.cfg.includeCounters = true →
    (s.countEvents user 0 0 1).per.counters[3] = s.per.counters[3] + 1#32
    ∧ (s.countEvents user 0 0 1).per.counters[7] = (if user then s.per.counters[7] + 1#32 else s.per.counters[7])
    ∧ (s.countEvents user 0 0 1).per.counters[0] = s.per.counters[0])
  ∧ ∀ (c : Word) (n : Nat), (counterAdd c n).1 = c + BitVec.ofNat 32 n
    ∧ ((counterAdd c n).2 = true ↔ 2 ^ 32 ≤ c.toNat + n)

/-- DMACTRL (60_exceptions.md R367, R368): the key starts an idle controller on the registers' values; a write without it only
clears bit 30; while a transfer runs the length and address registers take no write. That a keyless write changes nothing else
and busy writes are ignored are the spec's own choices (log entry 24). -/
def Obligations.DmaNeedsItsKey : Prop :=
  (∀ (d : Dma) (w : Word), d.active = false → w.extractLsb' 16 12 = 0xfed#12 → d.len ≠ 0#32 →
    (d.writeCtrl w).1.active = true ∧ (d.writeCtrl w).1.err = false ∧ (d.writeCtrl w).1.remaining = d.len
    ∧ (d.writeCtrl w).1.curSrc = d.src ∧ (d.writeCtrl w).1.curDst = d.dst
    ∧ (d.writeCtrl w).1.noIncSrc = w.getLsbD 29 ∧ (d.writeCtrl w).1.noIncDst = w.getLsbD 28
    ∧ (d.writeCtrl w).1.trigger = w.getLsbD 15 ∧ (d.writeCtrl w).1.line = w.extractLsb' 10 5
    ∧ (d.writeCtrl w).1.chunk = w.extractLsb' 0 10)
  ∧ (∀ (d : Dma) (w : Word), w.extractLsb' 16 12 ≠ 0xfed#12 → d.writeCtrl w = ({ d with err := false }, false))
  ∧ ∀ (d : Dma) (w : Word), d.active = true → d.writeLen w = d ∧ d.writeSrc w = d ∧ d.writeDst w = d

/-- A DMA copy (60_exceptions.md R369): an immediate, incrementing transfer whose whole length fits one chunk, RAM to RAM, the
bus free, is done after two grants of the bus: the source words stand at the destination, every other word of memory is as it
was, the controller is idle and line 0 of the primary controller has tripped. Bursts as single grants of the bus are the
model's choice (log entry 24); that the controller's line is number 0 is the spec's D32, from general knowledge (log entry 22). -/
def Obligations.DmaCopiesTheBlock : Prop :=
  ∀ s : State, s.cfg.container = .zipSystem → s.lockLeft = 0 → s.posted = none → s.per.dma.active = true →
    s.per.dma.buffer = [] → s.per.dma.trigger = false → s.per.dma.noIncSrc = false → s.per.dma.noIncDst = false →
    0 < s.per.dma.remaining.toNat →
    s.per.dma.remaining.toNat ≤ (if s.per.dma.chunk = 0#10 then 1024 else s.per.dma.chunk.toNat) →
    (∀ i, i < s.per.dma.remaining.toNat → s.ramReady (s.per.dma.curSrc + BitVec.ofNat 32 i)
      ∧ s.ramReady (s.per.dma.curDst + BitVec.ofNat 32 i)) →
    let t := s.dmaMove.dmaMove
    t.per.dma.active = false ∧ t.per.dma.err = s.per.dma.err ∧ t.per.pic.st.getLsbD 0 = true
    ∧ (∀ i, i < s.per.dma.remaining.toNat → Memory.fetch t.mem (s.per.dma.curDst + BitVec.ofNat 32 i) =
        Memory.fetch s.mem (s.per.dma.curSrc + BitVec.ofNat 32 i))
    ∧ ∀ x, (∀ i, i < s.per.dma.remaining.toNat → x ≠ s.per.dma.curDst + BitVec.ofNat 32 i) →
        Memory.fetch t.mem x = Memory.fetch s.mem x

/-! ## The debug port -/

/-- The debug port's control register (60_exceptions.md R371, R372): bit 10 halts at the boundary, the store in flight completed,
the mode, SLEEP, both PCs and all registers staying; every word with bits 6, 8, 10 and 11 clear releases; bit 8 commands one step,
after which the CPU is held again, whether the instruction halts or not; bit 11 empties the cache; bits 5..0 select the register.
No bit 6: the reset is another statement's. A read shows the external wires in bits 31..14, GIE, SLEEP, the halt, its complement and
the interrupt in bits 13, 12, 10, 9 and 7, the register address in bits 5..0; that bits 11, 8 and 6 read 0 is the model's choice (log
entry 26). The order of the command bits, the end of a locked sequence, the store's error, and PHASE, which a release or a step leaves
as it was, are the model's choices too (log entries 9, 18, 26, 27, 30). -/
def Obligations.DebugPortControls : Prop :=
  (∀ s : State, s.halted = true → s.debugHalt = s)
  ∧ (∀ s t : State, s.halted = false → t = s.debugHalt →
    t.halted = true ∧ t.gie = s.gie ∧ t.sleep = s.sleep ∧ t.sup.pc = s.sup.pc ∧ t.usr.pc = s.usr.pc ∧ t.sup.r = s.sup.r
    ∧ t.usr.r = s.usr.r ∧ t.sup.flags = s.sup.flags ∧ t.usr.flags = s.usr.flags ∧ t.icache = s.icache ∧ t.posted = none
    ∧ t.mem = s.drainPosted.2.mem ∧ (t.storeErr = true ↔ s.storeErr = true ∨ s.drainPosted.1 = false) ∧ t.lockLeft = 0)
  ∧ (∀ (s t : State) (w : Word), w.getLsbD 6 = false →
    t = { s with dbgAddr := w.extractLsb' 0 6, icache := if w.getLsbD 11 then [] else s.icache } →
    (w.getLsbD 8 = false → w.getLsbD 10 = true → s.writeCtrl w = (t.debugHalt, false))
    ∧ (w.getLsbD 8 = false → w.getLsbD 10 = false → s.writeCtrl w = ({ t with halted := false }, false))
    ∧ (w.getLsbD 8 = true → s.writeCtrl w = ({ t with halted := false }, true)))
  ∧ (∀ (s : State) (w : Word), w.getLsbD 6 = false → w.getLsbD 8 = false → w.getLsbD 10 = false → w.getLsbD 11 = false →
    s.writeCtrl w = ({ s with dbgAddr := w.extractLsb' 0 6, halted := false }, false))
  ∧ (∀ (s p q u : State) (w i : Word), s.loadEnv.cur.reset = false → s.halted = true →
    s.loadEnv.cur.host = some (.writeCtrl w) → w.getLsbD 6 = false → w.getLsbD 8 = true →
    p = (s.loadEnv.writeCtrl w).1.agents.look → Executing p → p.fetch = (some i, q) → q.posted = none →
    exec (decode i) (issued q i) = .next u →
    ∃ t, step s = .next t ∧ t.halted = true
      ∧ (u.halted = false → t = ((u.lockStep (decode i)).stepSwitch p.gie).debugHalt)
      ∧ (u.halted = true → t = (u.lockStep (decode i)).settleStore))
  ∧ ∀ s : State, s.readCtrl.getLsbD 13 = s.gie ∧ s.readCtrl.getLsbD 12 = s.sleep ∧ s.readCtrl.getLsbD 10 = s.halted
    ∧ s.readCtrl.getLsbD 9 = !s.halted ∧ s.readCtrl.getLsbD 7 = s.irq ∧ s.readCtrl.extractLsb' 0 6 = s.dbgAddr
    ∧ s.readCtrl.extractLsb' 14 18 = s.extLines.extractLsb' 0 18
    ∧ s.readCtrl.getLsbD 11 = false ∧ s.readCtrl.getLsbD 8 = false ∧ s.readCtrl.getLsbD 6 = false

/-- The debug port's data register (60_exceptions.md R374 to R377): addresses 0 to 31 are the registers of the two sets, CC
assembled on a read; a write of a general register or a PC stores it and nothing else; a write of 14 acts as a supervisor-mode
write of sCC, one of 30 as a supervisor-mode MOV to uCC (10_state.md R48), neither halting nor releasing. Addresses 32 to 51 act
on the peripheral as a CPU's load or store would that the environment lets complete, where the build has it; that the port's own
access always completes is the model's choice (log entry 21). What no register has reads as some word and takes no write. A step
faults exactly if the host writes data while the CPU runs outside a locked sequence. Stopping at the forbidden write, the CC writes'
effects and the unassigned addresses are the model's choices (log entries 26, 37, 40). -/
def Obligations.DebugPortReachesTheRegisters : Prop :=
  (∀ (s : State) (n : Fin 14), s.dbgAddr = BitVec.ofNat 6 n.val → s.readData = { s with dbgOut := s.sup.r[n] }
    ∧ ∀ w, s.writeData w = { s with sup := { s.sup with r := s.sup.r.set n w } })
  ∧ (∀ (s : State) (n : Fin 14), s.dbgAddr = BitVec.ofNat 6 (16 + n.val) → s.readData = { s with dbgOut := s.usr.r[n] }
    ∧ ∀ w, s.writeData w = { s with usr := { s.usr with r := s.usr.r.set n w } })
  ∧ (∀ s : State, s.dbgAddr = 15#6 → s.readData = { s with dbgOut := s.sup.pc }
    ∧ ∀ w, s.writeData w = { s with sup := { s.sup with pc := w } })
  ∧ (∀ s : State, s.dbgAddr = 31#6 → s.readData = { s with dbgOut := s.usr.pc }
    ∧ ∀ w, s.writeData w = { s with usr := { s.usr with pc := w } })
  ∧ (∀ s : State, s.dbgAddr = 14#6 → s.readData = { s with dbgOut := s.readCC false }
    ∧ ∀ w, s.writeData w = if w.getLsbD 5 then returned (sccWritten s w) else sccWritten s w)
  ∧ (∀ s : State, s.dbgAddr = 30#6 → s.readData = { s with dbgOut := s.readCC true }
    ∧ ∀ w, s.writeData w = uccWritten s w)
  ∧ (∀ (s : State) (k : Fin 20), s.cfg.periphBase = 0xc0000000#32 → s.dbgAddr = BitVec.ofNat 6 (32 + k.val) →
    HasRegister s.cfg k.val →
    (∃ v, s.readData = { s with dbgOut := v }
      ∧ (s.calm (registerAddress k.val) → s.busRead (registerAddress k.val) = (some v, s)))
    ∧ ∀ w, ∃ p, s.writeData w = { s with per := p }
      ∧ (s.calm (registerAddress k.val) → s.busWrite (registerAddress k.val) w = (true, s.writeData w)))
  ∧ (∀ s : State, 32 ≤ s.dbgAddr.toNat → ¬HasRegister s.cfg (s.dbgAddr.toNat - 32) →
    (∃ v d, s.readData = { s with dbgOut := v, draws := d }) ∧ ∀ w, s.writeData w = s)
  ∧ ∀ s : State, (∃ r, step s = .fault r) ↔ s.loadEnv.cur.reset = false ∧ s.halted = false
    ∧ (s.lockLeft = 0 ∨ s.sleep = true) ∧ ∃ w, s.loadEnv.cur.host = some (.writeData w)
end

