-- ==== Sys2Proof/Laws/Encoding.lean ====
section
/-!
SUPPORT. How a field is read back from a word given as a sum of shifted fields, and that each field's code reads back.
-/

namespace Sys2Proof

/-- A field of a word is a quotient and a remainder of its value. -/
theorem toNat_field {x : Nat} (s l : Nat) (hx : x < 2 ^ 32) :
    ((BitVec.ofNat 32 x).extractLsb' s l).toNat = x / 2 ^ s % 2 ^ l := by
  rw [BitVec.extractLsb'_toNat, Nat.shiftRight_eq_div_pow, BitVec.toNat_ofNat, Nat.mod_eq_of_lt hx]

/-- A field of a word as a number of its own width. -/
theorem field_eq {x : Nat} (s l v : Nat) (hx : x < 2 ^ 32) (hv : x / 2 ^ s % 2 ^ l = v % 2 ^ l) :
    (BitVec.ofNat 32 x).extractLsb' s l = BitVec.ofNat l v :=
  BitVec.eq_of_toNat_eq (by rw [toNat_field s l hx, hv, BitVec.toNat_ofNat])

/-- A field that holds a bit vector's value is that bit vector. -/
theorem field_eq_bv {x : Nat} (s : Nat) {l : Nat} (v : BitVec l) (hx : x < 2 ^ 32) (hv : x / 2 ^ s % 2 ^ l = v.toNat) :
    (BitVec.ofNat 32 x).extractLsb' s l = v :=
  BitVec.eq_of_toNat_eq (by rw [toNat_field s l hx, hv])

/-- One bit of a word. -/
theorem bit_eq {x : Nat} (s : Nat) (b : Bool) (hx : x < 2 ^ 32) (hv : x / 2 ^ s % 2 = b.toNat) :
    (BitVec.ofNat 32 x).getLsbD s = b := by
  rw [BitVec.getLsbD, BitVec.toNat_ofNat, Nat.mod_eq_of_lt hx, Nat.testBit_eq_decide_div_mod_eq, hv]
  cases b <;> rfl

theorem decodeReg_code (r : Reg) : decodeReg r.code = r := by
  rcases r with n | _ | _
  · revert n
    decide
  · rfl
  · rfl

theorem decodeCond_code (cnd : Cond) : decodeCond cnd.code = cnd := by cases cnd <;> rfl

theorem decodeCond2_code (cnd : Cond2) : decodeCond2 cnd.code = cnd := by cases cnd <;> rfl

theorem OpB.bits_lt (b : OpB) : b.bits < 2 ^ 19 := by
  cases b with
  | imm i =>
    have := i.isLt
    simp only [OpB.bits]
    omega
  | reg br off =>
    have h1 := br.code.isLt
    have h2 := off.isLt
    simp only [OpB.bits]
    omega

theorem HalfB.bits_lt (b : HalfB) : b.bits < 2 ^ 5 := by
  cases b with
  | imm i =>
    have := i.isLt
    simp only [HalfB.bits]
    omega
  | reg br =>
    have h1 := br.code.isLt
    simp only [HalfB.bits]
    omega

theorem StdOp.code_lt (op : StdOp) : op.code < 0x16 := by cases op <;> decide

theorem Half.drBits_lt (h : Half) : h.drBits < 2 ^ 4 := by
  cases h with
  | std op dr b => exact dr.code.isLt
  | mov dr b => exact dr.code.isLt
  | ldi dr low imm => exact dr.code.isLt
  | group bit sel rsvd => cases bit <;> simp [Half.drBits]
  | unbuilt sel dr b => exact dr.code.isLt

theorem Half.opBits_lt (h : Half) : h.opBits < 2 ^ 5 := by
  cases h with
  | std op dr b =>
    have := op.code_lt
    simp only [Half.opBits]
    omega
  | mov dr b => simp [Half.opBits]
  | ldi dr low imm => cases low <;> simp [Half.opBits]
  | group bit sel rsvd =>
    have := sel.isLt
    simp only [Half.opBits]
    omega
  | unbuilt sel dr b =>
    have := sel.isLt
    simp only [Half.opBits]
    omega

theorem Half.opbBits_lt (h : Half) : h.opbBits < 2 ^ 5 := by
  cases h with
  | std op dr b => exact b.bits_lt
  | mov dr b => exact b.bits_lt
  | ldi dr low imm => exact imm.isLt
  | group bit sel rsvd => exact rsvd.isLt
  | unbuilt sel dr b => exact b.isLt

theorem decodeOpB_bits (b : OpB) : decodeOpB (BitVec.ofNat 19 b.bits) = b := by
  cases b with
  | imm i =>
    have hi := i.isLt
    have h1 : (BitVec.ofNat 19 (OpB.imm i).bits).getLsbD 18 = false := by
      simp only [OpB.bits, BitVec.getLsbD, BitVec.toNat_ofNat]
      rw [Nat.testBit_eq_decide_div_mod_eq]
      simp only [decide_eq_false_iff_not]
      omega
    simp only [decodeOpB, h1, Bool.false_eq_true, if_false]
    congr 1
    apply BitVec.eq_of_toNat_eq
    simp only [BitVec.extractLsb'_toNat, OpB.bits, BitVec.toNat_ofNat]
    omega
  | reg br off =>
    have h0 := br.code.isLt
    have h2 := off.isLt
    have h1 : (BitVec.ofNat 19 (OpB.reg br off).bits).getLsbD 18 = true := by
      simp only [OpB.bits, BitVec.getLsbD, BitVec.toNat_ofNat]
      rw [Nat.testBit_eq_decide_div_mod_eq]
      simp only [decide_eq_true_eq]
      omega
    simp only [decodeOpB, h1, if_true]
    congr 1
    · rw [← decodeReg_code br]
      congr 1
      apply BitVec.eq_of_toNat_eq
      simp only [BitVec.extractLsb'_toNat, OpB.bits, BitVec.toNat_ofNat, Nat.shiftRight_eq_div_pow, decodeReg_code]
      omega
    · apply BitVec.eq_of_toNat_eq
      simp only [BitVec.extractLsb'_toNat, OpB.bits, BitVec.toNat_ofNat, Nat.shiftRight_eq_div_pow]
      omega

theorem decodeHalfB_bits (b : HalfB) : decodeHalfB (BitVec.ofNat 5 b.bits) = b := by
  cases b with
  | imm i =>
    revert i
    decide
  | reg br =>
    rcases br with n | _ | _
    · revert n
      decide
    · decide
    · decide

end Sys2Proof
end

