-- ==== Sys2Proof/Laws/Memory.lean ====
section
/-!
SUPPORT. The laws of word memory: a read after a write, a write and everything else, and the canonical form.
-/

namespace Sys2Proof.Machine

open Sys2Proof

theorem Memory.read_of_risesFrom {m : Memory} : ∀ {lo a : Nat}, Memory.risesFrom lo m = true → a < lo →
    Memory.read m a = none := by
  induction m with
  | nil => intros; rfl
  | cons p m ih =>
    intro lo a h ha
    obtain ⟨k, v⟩ := p
    simp only [Memory.risesFrom, Bool.and_eq_true, decide_eq_true_eq] at h
    have hk : k ≠ a := by omega
    simp only [Memory.read, if_neg hk]
    exact ih h.2 (by omega)

/-- Rising from a bound is rising from any lower one. -/
theorem Memory.risesFrom_mono {m : Memory} {lo lo' : Nat} (h : Memory.risesFrom lo m = true) (hl : lo' ≤ lo) :
    Memory.risesFrom lo' m = true := by
  cases m with
  | nil => rfl
  | cons p m =>
    obtain ⟨k, v⟩ := p
    simp only [Memory.risesFrom, Bool.and_eq_true, decide_eq_true_eq] at h ⊢
    exact ⟨⟨by omega, h.1.2⟩, h.2⟩

/-- The word written is the word read. -/
theorem Memory.read_write_same (m : Memory) (a : Nat) (w : Word) : Memory.read (Memory.write m a w) a = some w := by
  induction m with
  | nil => simp [Memory.write, Memory.read]
  | cons p m ih =>
    obtain ⟨k, v⟩ := p
    simp only [Memory.write]
    split
    · simp [Memory.read]
    · split
      · simp [Memory.read]
      · rename_i _ hne
        simp [Memory.read, Ne.symm hne, ih]

/-- Writing one address leaves every other as it was. -/
theorem Memory.read_write_other (m : Memory) {a b : Nat} (w : Word) (h : b ≠ a) :
    Memory.read (Memory.write m a w) b = Memory.read m b := by
  induction m with
  | nil => simp [Memory.write, Memory.read, Ne.symm h]
  | cons p m ih =>
    obtain ⟨k, v⟩ := p
    simp only [Memory.write]
    split
    · simp [Memory.read, Ne.symm h]
    · split
      · rename_i _ he
        subst he
        simp [Memory.read, Ne.symm h]
      · simp only [Memory.read, ih]

/-- A write keeps the canonical form. -/
theorem Memory.risesFrom_write {m : Memory} : ∀ {lo a : Nat} {w : Word}, Memory.risesFrom lo m = true → lo ≤ a →
    a < 2 ^ 32 → Memory.risesFrom lo (Memory.write m a w) = true := by
  induction m with
  | nil =>
    intro lo a w _ hlo ha
    simp only [Memory.write, Memory.risesFrom, Bool.and_true, Bool.and_eq_true, decide_eq_true_eq]
    exact ⟨hlo, ha⟩
  | cons p m ih =>
    intro lo a w h hlo ha
    obtain ⟨k, v⟩ := p
    simp only [Memory.risesFrom, Bool.and_eq_true, decide_eq_true_eq] at h
    simp only [Memory.write]
    split
    · rename_i hlt
      simp only [Memory.risesFrom, Bool.and_eq_true, decide_eq_true_eq]
      exact ⟨⟨hlo, ha⟩, ⟨by omega, h.1.2⟩, h.2⟩
    · split
      · rename_i _ he
        subst he
        simp only [Memory.risesFrom, Bool.and_eq_true, decide_eq_true_eq]
        exact h
      · simp only [Memory.risesFrom, Bool.and_eq_true, decide_eq_true_eq]
        exact ⟨h.1, ih h.2 (by omega) ha⟩

theorem Memory.wf_write {m : Memory} (a w : Word) (h : Memory.wf m = true) :
    Memory.wf (Memory.write m a.toNat w) = true :=
  Memory.risesFrom_write h (Nat.zero_le _) a.isLt

/-- Forgetting an address keeps the canonical form. -/
theorem Memory.risesFrom_drop {m : Memory} : ∀ {lo a : Nat}, Memory.risesFrom lo m = true →
    Memory.risesFrom lo (Memory.drop m a) = true := by
  induction m with
  | nil => intros; rfl
  | cons p m ih =>
    intro lo a h
    obtain ⟨k, v⟩ := p
    simp only [Memory.risesFrom, Bool.and_eq_true, decide_eq_true_eq] at h
    simp only [Memory.drop]
    split
    · exact Memory.risesFrom_mono h.2 (by omega)
    · simp only [Memory.risesFrom, Bool.and_eq_true, decide_eq_true_eq]
      exact ⟨h.1, ih h.2⟩

theorem Memory.wf_drop {m : Memory} (a : Nat) (h : Memory.wf m = true) : Memory.wf (Memory.drop m a) = true :=
  Memory.risesFrom_drop h

/-- A forgotten address is not listed. -/
theorem Memory.read_drop_same {m : Memory} {a : Nat} (h : Memory.wf m = true) :
    Memory.read (Memory.drop m a) a = none := by
  have key : ∀ {m : Memory} {lo : Nat}, Memory.risesFrom lo m = true → Memory.read (Memory.drop m a) a = none := by
    intro m
    induction m with
    | nil => intros; rfl
    | cons p m ih =>
      intro lo h
      obtain ⟨k, v⟩ := p
      simp only [Memory.risesFrom, Bool.and_eq_true, decide_eq_true_eq] at h
      simp only [Memory.drop]
      split
      · rename_i he
        subst he
        exact Memory.read_of_risesFrom h.2 (by omega)
      · rename_i hne
        simp only [Memory.read, if_neg hne]
        exact ih h.2
  exact key h

/-- A write lists at most one address more. -/
theorem Memory.length_write_le (m : Memory) (a : Nat) (w : Word) :
    (Memory.write m a w).length ≤ m.length + 1 := by
  induction m with
  | nil => simp [Memory.write]
  | cons p m ih =>
    obtain ⟨k, v⟩ := p
    simp only [Memory.write]
    split
    · simp
    · split
      · simp
      · simpa using ih

/-- A word dropped lists no more addresses. -/
theorem Memory.length_drop_le (m : Memory) (a : Nat) : (Memory.drop m a).length ≤ m.length := by
  induction m with
  | nil => simp [Memory.drop]
  | cons p m ih =>
    obtain ⟨k, v⟩ := p
    simp only [Memory.drop]
    split
    · simp
    · simpa using ih

/-- The machine after reset has memory in canonical form. -/
theorem Memory.wf_reset : Memory.wf State.reset.mem = true := rfl

/-- What the machine finds after a write. -/
theorem Memory.fetch_write (m : Memory) (a b w : Word) :
    Memory.fetch (Memory.write m a.toNat w) b = if b = a then w else Memory.fetch m b := by
  split
  · rename_i h
    subst h
    simp [Memory.fetch, Memory.read_write_same]
  · rename_i h
    have hn : b.toNat ≠ a.toNat := fun hab => h (BitVec.eq_of_toNat_eq hab)
    simp [Memory.fetch, Memory.read_write_other m w hn]

end Sys2Proof.Machine
end

