-- ==== Sys2Proof/Laws/State.lean ====
section
/-!
SUPPORT. One lemma per field per update of the state, so that no later proof unfolds a record update.
-/

namespace Sys2Proof.Machine

open Sys2Proof

/-! ## Register sets -/

@[simp] theorem State.set_true (s : State) : s.set true = s.usr := rfl
@[simp] theorem State.set_false (s : State) : s.set false = s.sup := rfl

/-! ## A set replaced -/

@[simp] theorem State.withSet_cfg (s : State) (u : Bool) (rs : RegSet) : (s.withSet u rs).cfg = s.cfg := by cases u <;> rfl
@[simp] theorem State.withSet_sup (s : State) (u : Bool) (rs : RegSet) : (s.withSet u rs).sup = (if u then s.sup else rs) := by cases u <;> rfl
@[simp] theorem State.withSet_usr (s : State) (u : Bool) (rs : RegSet) : (s.withSet u rs).usr = (if u then rs else s.usr) := by cases u <;> rfl
@[simp] theorem State.withSet_gie (s : State) (u : Bool) (rs : RegSet) : (s.withSet u rs).gie = s.gie := by cases u <;> rfl
@[simp] theorem State.withSet_sleep (s : State) (u : Bool) (rs : RegSet) : (s.withSet u rs).sleep = s.sleep := by cases u <;> rfl
@[simp] theorem State.withSet_stepBit (s : State) (u : Bool) (rs : RegSet) : (s.withSet u rs).stepBit = s.stepBit := by cases u <;> rfl
@[simp] theorem State.withSet_breakEn (s : State) (u : Bool) (rs : RegSet) : (s.withSet u rs).breakEn = s.breakEn := by cases u <;> rfl
@[simp] theorem State.withSet_ubreak (s : State) (u : Bool) (rs : RegSet) : (s.withSet u rs).ubreak = s.ubreak := by cases u <;> rfl
@[simp] theorem State.withSet_trap (s : State) (u : Bool) (rs : RegSet) : (s.withSet u rs).trap = s.trap := by cases u <;> rfl
@[simp] theorem State.withSet_halted (s : State) (u : Bool) (rs : RegSet) : (s.withSet u rs).halted = s.halted := by cases u <;> rfl
@[simp] theorem State.withSet_lockLeft (s : State) (u : Bool) (rs : RegSet) : (s.withSet u rs).lockLeft = s.lockLeft := by cases u <;> rfl
@[simp] theorem State.withSet_mem (s : State) (u : Bool) (rs : RegSet) : (s.withSet u rs).mem = s.mem := by cases u <;> rfl
@[simp] theorem State.withSet_icache (s : State) (u : Bool) (rs : RegSet) : (s.withSet u rs).icache = s.icache := by cases u <;> rfl
@[simp] theorem State.withSet_posted (s : State) (u : Bool) (rs : RegSet) : (s.withSet u rs).posted = s.posted := by cases u <;> rfl
@[simp] theorem State.withSet_storeErr (s : State) (u : Bool) (rs : RegSet) : (s.withSet u rs).storeErr = s.storeErr := by cases u <;> rfl
@[simp] theorem State.withSet_ext (s : State) (u : Bool) (rs : RegSet) : (s.withSet u rs).ext = s.ext := by cases u <;> rfl
@[simp] theorem State.withSet_dmaWires (s : State) (u : Bool) (rs : RegSet) : (s.withSet u rs).dmaWires = s.dmaWires := by cases u <;> rfl
@[simp] theorem State.withSet_per (s : State) (u : Bool) (rs : RegSet) : (s.withSet u rs).per = s.per := by cases u <;> rfl
@[simp] theorem State.withSet_dbgAddr (s : State) (u : Bool) (rs : RegSet) : (s.withSet u rs).dbgAddr = s.dbgAddr := by cases u <;> rfl
@[simp] theorem State.withSet_dbgOut (s : State) (u : Bool) (rs : RegSet) : (s.withSet u rs).dbgOut = s.dbgOut := by cases u <;> rfl
@[simp] theorem State.withSet_irqSeen (s : State) (u : Bool) (rs : RegSet) : (s.withSet u rs).irqSeen = s.irqSeen := by cases u <;> rfl
@[simp] theorem State.withSet_draws (s : State) (u : Bool) (rs : RegSet) : (s.withSet u rs).draws = s.draws := by cases u <;> rfl
@[simp] theorem State.withSet_env (s : State) (u : Bool) (rs : RegSet) : (s.withSet u rs).env = s.env := by cases u <;> rfl
@[simp] theorem State.withSet_cur (s : State) (u : Bool) (rs : RegSet) : (s.withSet u rs).cur = s.cur := by cases u <;> rfl

@[simp] theorem State.set_withSet (s : State) (u : Bool) (rs : RegSet) : (s.withSet u rs).set u = rs := by cases u <;> rfl
@[simp] theorem State.active_withSet_gie (s : State) (rs : RegSet) : (s.withSet s.gie rs).active = rs := by
  simp [State.active]
@[simp] theorem State.active_withActive (s : State) (rs : RegSet) : (s.withActive rs).active = rs := by
  simp [State.withActive]
@[simp] theorem State.withSet_withSet (s : State) (u : Bool) (a b : RegSet) : (s.withSet u a).withSet u b = s.withSet u b := by
  cases u <;> rfl

/-! ## The active set replaced -/

@[simp] theorem State.withActive_cfg (s : State) (rs : RegSet) : (s.withActive rs).cfg = s.cfg := by cases h : s.gie <;> simp [State.withActive, State.withSet, h]
@[simp] theorem State.withActive_sup (s : State) (rs : RegSet) : (s.withActive rs).sup = (if s.gie then s.sup else rs) := by cases h : s.gie <;> simp [State.withActive, State.withSet, h]
@[simp] theorem State.withActive_usr (s : State) (rs : RegSet) : (s.withActive rs).usr = (if s.gie then rs else s.usr) := by cases h : s.gie <;> simp [State.withActive, State.withSet, h]
@[simp] theorem State.withActive_gie (s : State) (rs : RegSet) : (s.withActive rs).gie = s.gie := by cases h : s.gie <;> simp [State.withActive, State.withSet, h]
@[simp] theorem State.withActive_sleep (s : State) (rs : RegSet) : (s.withActive rs).sleep = s.sleep := by cases h : s.gie <;> simp [State.withActive, State.withSet, h]
@[simp] theorem State.withActive_stepBit (s : State) (rs : RegSet) : (s.withActive rs).stepBit = s.stepBit := by cases h : s.gie <;> simp [State.withActive, State.withSet, h]
@[simp] theorem State.withActive_breakEn (s : State) (rs : RegSet) : (s.withActive rs).breakEn = s.breakEn := by cases h : s.gie <;> simp [State.withActive, State.withSet, h]
@[simp] theorem State.withActive_ubreak (s : State) (rs : RegSet) : (s.withActive rs).ubreak = s.ubreak := by cases h : s.gie <;> simp [State.withActive, State.withSet, h]
@[simp] theorem State.withActive_trap (s : State) (rs : RegSet) : (s.withActive rs).trap = s.trap := by cases h : s.gie <;> simp [State.withActive, State.withSet, h]
@[simp] theorem State.withActive_halted (s : State) (rs : RegSet) : (s.withActive rs).halted = s.halted := by cases h : s.gie <;> simp [State.withActive, State.withSet, h]
@[simp] theorem State.withActive_lockLeft (s : State) (rs : RegSet) : (s.withActive rs).lockLeft = s.lockLeft := by cases h : s.gie <;> simp [State.withActive, State.withSet, h]
@[simp] theorem State.withActive_mem (s : State) (rs : RegSet) : (s.withActive rs).mem = s.mem := by cases h : s.gie <;> simp [State.withActive, State.withSet, h]
@[simp] theorem State.withActive_icache (s : State) (rs : RegSet) : (s.withActive rs).icache = s.icache := by cases h : s.gie <;> simp [State.withActive, State.withSet, h]
@[simp] theorem State.withActive_posted (s : State) (rs : RegSet) : (s.withActive rs).posted = s.posted := by cases h : s.gie <;> simp [State.withActive, State.withSet, h]
@[simp] theorem State.withActive_storeErr (s : State) (rs : RegSet) : (s.withActive rs).storeErr = s.storeErr := by cases h : s.gie <;> simp [State.withActive, State.withSet, h]
@[simp] theorem State.withActive_ext (s : State) (rs : RegSet) : (s.withActive rs).ext = s.ext := by cases h : s.gie <;> simp [State.withActive, State.withSet, h]
@[simp] theorem State.withActive_dmaWires (s : State) (rs : RegSet) : (s.withActive rs).dmaWires = s.dmaWires := by cases h : s.gie <;> simp [State.withActive, State.withSet, h]
@[simp] theorem State.withActive_per (s : State) (rs : RegSet) : (s.withActive rs).per = s.per := by cases h : s.gie <;> simp [State.withActive, State.withSet, h]
@[simp] theorem State.withActive_dbgAddr (s : State) (rs : RegSet) : (s.withActive rs).dbgAddr = s.dbgAddr := by cases h : s.gie <;> simp [State.withActive, State.withSet, h]
@[simp] theorem State.withActive_dbgOut (s : State) (rs : RegSet) : (s.withActive rs).dbgOut = s.dbgOut := by cases h : s.gie <;> simp [State.withActive, State.withSet, h]
@[simp] theorem State.withActive_irqSeen (s : State) (rs : RegSet) : (s.withActive rs).irqSeen = s.irqSeen := by cases h : s.gie <;> simp [State.withActive, State.withSet, h]
@[simp] theorem State.withActive_draws (s : State) (rs : RegSet) : (s.withActive rs).draws = s.draws := by cases h : s.gie <;> simp [State.withActive, State.withSet, h]
@[simp] theorem State.withActive_env (s : State) (rs : RegSet) : (s.withActive rs).env = s.env := by cases h : s.gie <;> simp [State.withActive, State.withSet, h]
@[simp] theorem State.withActive_cur (s : State) (rs : RegSet) : (s.withActive rs).cur = s.cur := by cases h : s.gie <;> simp [State.withActive, State.withSet, h]

/-! ## The PC advanced -/

@[simp] theorem State.advance_cfg (s : State) : (s.advance).cfg = s.cfg := by simp [State.advance]
@[simp] theorem State.advance_gie (s : State) : (s.advance).gie = s.gie := by simp [State.advance]
@[simp] theorem State.advance_sleep (s : State) : (s.advance).sleep = s.sleep := by simp [State.advance]
@[simp] theorem State.advance_stepBit (s : State) : (s.advance).stepBit = s.stepBit := by simp [State.advance]
@[simp] theorem State.advance_breakEn (s : State) : (s.advance).breakEn = s.breakEn := by simp [State.advance]
@[simp] theorem State.advance_ubreak (s : State) : (s.advance).ubreak = s.ubreak := by simp [State.advance]
@[simp] theorem State.advance_trap (s : State) : (s.advance).trap = s.trap := by simp [State.advance]
@[simp] theorem State.advance_halted (s : State) : (s.advance).halted = s.halted := by simp [State.advance]
@[simp] theorem State.advance_lockLeft (s : State) : (s.advance).lockLeft = s.lockLeft := by simp [State.advance]
@[simp] theorem State.advance_mem (s : State) : (s.advance).mem = s.mem := by simp [State.advance]
@[simp] theorem State.advance_icache (s : State) : (s.advance).icache = s.icache := by simp [State.advance]
@[simp] theorem State.advance_posted (s : State) : (s.advance).posted = s.posted := by simp [State.advance]
@[simp] theorem State.advance_storeErr (s : State) : (s.advance).storeErr = s.storeErr := by simp [State.advance]
@[simp] theorem State.advance_ext (s : State) : (s.advance).ext = s.ext := by simp [State.advance]
@[simp] theorem State.advance_dmaWires (s : State) : (s.advance).dmaWires = s.dmaWires := by simp [State.advance]
@[simp] theorem State.advance_per (s : State) : (s.advance).per = s.per := by simp [State.advance]
@[simp] theorem State.advance_dbgAddr (s : State) : (s.advance).dbgAddr = s.dbgAddr := by simp [State.advance]
@[simp] theorem State.advance_dbgOut (s : State) : (s.advance).dbgOut = s.dbgOut := by simp [State.advance]
@[simp] theorem State.advance_irqSeen (s : State) : (s.advance).irqSeen = s.irqSeen := by simp [State.advance]
@[simp] theorem State.advance_draws (s : State) : (s.advance).draws = s.draws := by simp [State.advance]
@[simp] theorem State.advance_env (s : State) : (s.advance).env = s.env := by simp [State.advance]
@[simp] theorem State.advance_cur (s : State) : (s.advance).cur = s.cur := by simp [State.advance]

@[simp] theorem State.active_advance (s : State) : s.advance.active = { s.active with pc := s.active.pc + 1#32 } := by
  simp [State.advance]

/-! ## The switch to supervisor mode -/

@[simp] theorem State.enterSupervisor_cfg (s : State) (a : Word) (p : Bool) : (s.enterSupervisor a p).cfg = s.cfg := rfl
@[simp] theorem State.enterSupervisor_sup (s : State) (a : Word) (p : Bool) : (s.enterSupervisor a p).sup = s.sup := rfl
@[simp] theorem State.enterSupervisor_usr (s : State) (a : Word) (p : Bool) : (s.enterSupervisor a p).usr = { s.usr with pc := a, phase := p } := rfl
@[simp] theorem State.enterSupervisor_gie (s : State) (a : Word) (p : Bool) : (s.enterSupervisor a p).gie = false := rfl
@[simp] theorem State.enterSupervisor_sleep (s : State) (a : Word) (p : Bool) : (s.enterSupervisor a p).sleep = false := rfl
@[simp] theorem State.enterSupervisor_stepBit (s : State) (a : Word) (p : Bool) : (s.enterSupervisor a p).stepBit = s.stepBit := rfl
@[simp] theorem State.enterSupervisor_breakEn (s : State) (a : Word) (p : Bool) : (s.enterSupervisor a p).breakEn = s.breakEn := rfl
@[simp] theorem State.enterSupervisor_ubreak (s : State) (a : Word) (p : Bool) : (s.enterSupervisor a p).ubreak = s.ubreak := rfl
@[simp] theorem State.enterSupervisor_trap (s : State) (a : Word) (p : Bool) : (s.enterSupervisor a p).trap = s.trap := rfl
@[simp] theorem State.enterSupervisor_halted (s : State) (a : Word) (p : Bool) : (s.enterSupervisor a p).halted = s.halted := rfl
@[simp] theorem State.enterSupervisor_lockLeft (s : State) (a : Word) (p : Bool) : (s.enterSupervisor a p).lockLeft = 0 := rfl
@[simp] theorem State.enterSupervisor_mem (s : State) (a : Word) (p : Bool) : (s.enterSupervisor a p).mem = s.mem := rfl
@[simp] theorem State.enterSupervisor_icache (s : State) (a : Word) (p : Bool) : (s.enterSupervisor a p).icache = s.icache := rfl
@[simp] theorem State.enterSupervisor_posted (s : State) (a : Word) (p : Bool) : (s.enterSupervisor a p).posted = s.posted := rfl
@[simp] theorem State.enterSupervisor_storeErr (s : State) (a : Word) (p : Bool) : (s.enterSupervisor a p).storeErr = s.storeErr := rfl
@[simp] theorem State.enterSupervisor_ext (s : State) (a : Word) (p : Bool) : (s.enterSupervisor a p).ext = s.ext := rfl
@[simp] theorem State.enterSupervisor_dmaWires (s : State) (a : Word) (p : Bool) : (s.enterSupervisor a p).dmaWires = s.dmaWires := rfl
@[simp] theorem State.enterSupervisor_per (s : State) (a : Word) (p : Bool) : (s.enterSupervisor a p).per = s.per := rfl
@[simp] theorem State.enterSupervisor_dbgAddr (s : State) (a : Word) (p : Bool) : (s.enterSupervisor a p).dbgAddr = s.dbgAddr := rfl
@[simp] theorem State.enterSupervisor_dbgOut (s : State) (a : Word) (p : Bool) : (s.enterSupervisor a p).dbgOut = s.dbgOut := rfl
@[simp] theorem State.enterSupervisor_irqSeen (s : State) (a : Word) (p : Bool) : (s.enterSupervisor a p).irqSeen = s.irqSeen := rfl
@[simp] theorem State.enterSupervisor_draws (s : State) (a : Word) (p : Bool) : (s.enterSupervisor a p).draws = s.draws := rfl
@[simp] theorem State.enterSupervisor_env (s : State) (a : Word) (p : Bool) : (s.enterSupervisor a p).env = s.env := rfl
@[simp] theorem State.enterSupervisor_cur (s : State) (a : Word) (p : Bool) : (s.enterSupervisor a p).cur = s.cur := rfl

/-! ## The return to user mode -/

@[simp] theorem State.returnToUser_cfg (s : State) : (s.returnToUser).cfg = s.cfg := rfl
@[simp] theorem State.returnToUser_sup (s : State) : (s.returnToUser).sup = s.sup := rfl
@[simp] theorem State.returnToUser_usr (s : State) : (s.returnToUser).usr = { s.usr with ill := false, busErr := false, divErr := false, fpErr := false, phase := false } := rfl
@[simp] theorem State.returnToUser_gie (s : State) : (s.returnToUser).gie = true := rfl
@[simp] theorem State.returnToUser_sleep (s : State) : (s.returnToUser).sleep = s.sleep := rfl
@[simp] theorem State.returnToUser_stepBit (s : State) : (s.returnToUser).stepBit = s.stepBit := rfl
@[simp] theorem State.returnToUser_breakEn (s : State) : (s.returnToUser).breakEn = s.breakEn := rfl
@[simp] theorem State.returnToUser_ubreak (s : State) : (s.returnToUser).ubreak = false := rfl
@[simp] theorem State.returnToUser_trap (s : State) : (s.returnToUser).trap = false := rfl
@[simp] theorem State.returnToUser_halted (s : State) : (s.returnToUser).halted = s.halted := rfl
@[simp] theorem State.returnToUser_lockLeft (s : State) : (s.returnToUser).lockLeft = s.lockLeft := rfl
@[simp] theorem State.returnToUser_mem (s : State) : (s.returnToUser).mem = s.mem := rfl
@[simp] theorem State.returnToUser_icache (s : State) : (s.returnToUser).icache = s.icache := rfl
@[simp] theorem State.returnToUser_posted (s : State) : (s.returnToUser).posted = s.posted := rfl
@[simp] theorem State.returnToUser_storeErr (s : State) : (s.returnToUser).storeErr = s.storeErr := rfl
@[simp] theorem State.returnToUser_ext (s : State) : (s.returnToUser).ext = s.ext := rfl
@[simp] theorem State.returnToUser_dmaWires (s : State) : (s.returnToUser).dmaWires = s.dmaWires := rfl
@[simp] theorem State.returnToUser_per (s : State) : (s.returnToUser).per = s.per := rfl
@[simp] theorem State.returnToUser_dbgAddr (s : State) : (s.returnToUser).dbgAddr = s.dbgAddr := rfl
@[simp] theorem State.returnToUser_dbgOut (s : State) : (s.returnToUser).dbgOut = s.dbgOut := rfl
@[simp] theorem State.returnToUser_irqSeen (s : State) : (s.returnToUser).irqSeen = s.irqSeen := rfl
@[simp] theorem State.returnToUser_draws (s : State) : (s.returnToUser).draws = s.draws := rfl
@[simp] theorem State.returnToUser_env (s : State) : (s.returnToUser).env = s.env := rfl
@[simp] theorem State.returnToUser_cur (s : State) : (s.returnToUser).cur = s.cur := rfl

/-! ## A write of uCC by the supervisor -/

@[simp] theorem State.supWriteUCC_cfg (s : State) (v : Word) : (s.supWriteUCC v).cfg = s.cfg := rfl
@[simp] theorem State.supWriteUCC_sup (s : State) (v : Word) : (s.supWriteUCC v).sup = s.sup := rfl
@[simp] theorem State.supWriteUCC_usr (s : State) (v : Word) : (s.supWriteUCC v).usr = { s.usr with flags := flagsOfWord v, busErr := s.usr.busErr && v.getLsbD 10, divErr := s.usr.divErr && v.getLsbD 11 } := rfl
@[simp] theorem State.supWriteUCC_gie (s : State) (v : Word) : (s.supWriteUCC v).gie = s.gie := rfl
@[simp] theorem State.supWriteUCC_sleep (s : State) (v : Word) : (s.supWriteUCC v).sleep = v.getLsbD 4 := rfl
@[simp] theorem State.supWriteUCC_stepBit (s : State) (v : Word) : (s.supWriteUCC v).stepBit = v.getLsbD 6 := rfl
@[simp] theorem State.supWriteUCC_breakEn (s : State) (v : Word) : (s.supWriteUCC v).breakEn = s.breakEn := rfl
@[simp] theorem State.supWriteUCC_ubreak (s : State) (v : Word) : (s.supWriteUCC v).ubreak = (s.ubreak && v.getLsbD 7) := rfl
@[simp] theorem State.supWriteUCC_trap (s : State) (v : Word) : (s.supWriteUCC v).trap = s.trap := rfl
@[simp] theorem State.supWriteUCC_halted (s : State) (v : Word) : (s.supWriteUCC v).halted = s.halted := rfl
@[simp] theorem State.supWriteUCC_lockLeft (s : State) (v : Word) : (s.supWriteUCC v).lockLeft = s.lockLeft := rfl
@[simp] theorem State.supWriteUCC_mem (s : State) (v : Word) : (s.supWriteUCC v).mem = s.mem := rfl
@[simp] theorem State.supWriteUCC_icache (s : State) (v : Word) : (s.supWriteUCC v).icache = s.icache := rfl
@[simp] theorem State.supWriteUCC_posted (s : State) (v : Word) : (s.supWriteUCC v).posted = s.posted := rfl
@[simp] theorem State.supWriteUCC_storeErr (s : State) (v : Word) : (s.supWriteUCC v).storeErr = s.storeErr := rfl
@[simp] theorem State.supWriteUCC_ext (s : State) (v : Word) : (s.supWriteUCC v).ext = s.ext := rfl
@[simp] theorem State.supWriteUCC_dmaWires (s : State) (v : Word) : (s.supWriteUCC v).dmaWires = s.dmaWires := rfl
@[simp] theorem State.supWriteUCC_per (s : State) (v : Word) : (s.supWriteUCC v).per = s.per := rfl
@[simp] theorem State.supWriteUCC_dbgAddr (s : State) (v : Word) : (s.supWriteUCC v).dbgAddr = s.dbgAddr := rfl
@[simp] theorem State.supWriteUCC_dbgOut (s : State) (v : Word) : (s.supWriteUCC v).dbgOut = s.dbgOut := rfl
@[simp] theorem State.supWriteUCC_irqSeen (s : State) (v : Word) : (s.supWriteUCC v).irqSeen = s.irqSeen := rfl
@[simp] theorem State.supWriteUCC_draws (s : State) (v : Word) : (s.supWriteUCC v).draws = s.draws := rfl
@[simp] theorem State.supWriteUCC_env (s : State) (v : Word) : (s.supWriteUCC v).env = s.env := rfl
@[simp] theorem State.supWriteUCC_cur (s : State) (v : Word) : (s.supWriteUCC v).cur = s.cur := rfl

/-! ## A locked sequence counted down -/

@[simp] theorem State.lockStep_cfg (s : State) (i : Instr) : (s.lockStep i).cfg = s.cfg := rfl
@[simp] theorem State.lockStep_sup (s : State) (i : Instr) : (s.lockStep i).sup = s.sup := rfl
@[simp] theorem State.lockStep_usr (s : State) (i : Instr) : (s.lockStep i).usr = s.usr := rfl
@[simp] theorem State.lockStep_gie (s : State) (i : Instr) : (s.lockStep i).gie = s.gie := rfl
@[simp] theorem State.lockStep_sleep (s : State) (i : Instr) : (s.lockStep i).sleep = s.sleep := rfl
@[simp] theorem State.lockStep_stepBit (s : State) (i : Instr) : (s.lockStep i).stepBit = s.stepBit := rfl
@[simp] theorem State.lockStep_breakEn (s : State) (i : Instr) : (s.lockStep i).breakEn = s.breakEn := rfl
@[simp] theorem State.lockStep_ubreak (s : State) (i : Instr) : (s.lockStep i).ubreak = s.ubreak := rfl
@[simp] theorem State.lockStep_trap (s : State) (i : Instr) : (s.lockStep i).trap = s.trap := rfl
@[simp] theorem State.lockStep_halted (s : State) (i : Instr) : (s.lockStep i).halted = s.halted := rfl
@[simp] theorem State.lockStep_lockLeft (s : State) (i : Instr) : (s.lockStep i).lockLeft = lockAfter i s.lockLeft := rfl
@[simp] theorem State.lockStep_mem (s : State) (i : Instr) : (s.lockStep i).mem = s.mem := rfl
@[simp] theorem State.lockStep_icache (s : State) (i : Instr) : (s.lockStep i).icache = s.icache := rfl
@[simp] theorem State.lockStep_posted (s : State) (i : Instr) : (s.lockStep i).posted = s.posted := rfl
@[simp] theorem State.lockStep_storeErr (s : State) (i : Instr) : (s.lockStep i).storeErr = s.storeErr := rfl
@[simp] theorem State.lockStep_ext (s : State) (i : Instr) : (s.lockStep i).ext = s.ext := rfl
@[simp] theorem State.lockStep_dmaWires (s : State) (i : Instr) : (s.lockStep i).dmaWires = s.dmaWires := rfl
@[simp] theorem State.lockStep_per (s : State) (i : Instr) : (s.lockStep i).per = s.per := rfl
@[simp] theorem State.lockStep_dbgAddr (s : State) (i : Instr) : (s.lockStep i).dbgAddr = s.dbgAddr := rfl
@[simp] theorem State.lockStep_dbgOut (s : State) (i : Instr) : (s.lockStep i).dbgOut = s.dbgOut := rfl
@[simp] theorem State.lockStep_irqSeen (s : State) (i : Instr) : (s.lockStep i).irqSeen = s.irqSeen := rfl
@[simp] theorem State.lockStep_draws (s : State) (i : Instr) : (s.lockStep i).draws = s.draws := rfl
@[simp] theorem State.lockStep_env (s : State) (i : Instr) : (s.lockStep i).env = s.env := rfl
@[simp] theorem State.lockStep_cur (s : State) (i : Instr) : (s.lockStep i).cur = s.cur := rfl

/-! ## The interrupt input looked at -/

@[simp] theorem State.look_cfg (s : State) : (s.look).cfg = s.cfg := rfl
@[simp] theorem State.look_sup (s : State) : (s.look).sup = s.sup := rfl
@[simp] theorem State.look_usr (s : State) : (s.look).usr = s.usr := rfl
@[simp] theorem State.look_gie (s : State) : (s.look).gie = s.gie := rfl
@[simp] theorem State.look_sleep (s : State) : (s.look).sleep = s.sleep := rfl
@[simp] theorem State.look_stepBit (s : State) : (s.look).stepBit = s.stepBit := rfl
@[simp] theorem State.look_breakEn (s : State) : (s.look).breakEn = s.breakEn := rfl
@[simp] theorem State.look_ubreak (s : State) : (s.look).ubreak = s.ubreak := rfl
@[simp] theorem State.look_trap (s : State) : (s.look).trap = s.trap := rfl
@[simp] theorem State.look_halted (s : State) : (s.look).halted = s.halted := rfl
@[simp] theorem State.look_lockLeft (s : State) : (s.look).lockLeft = s.lockLeft := rfl
@[simp] theorem State.look_mem (s : State) : (s.look).mem = s.mem := rfl
@[simp] theorem State.look_icache (s : State) : (s.look).icache = s.icache := rfl
@[simp] theorem State.look_posted (s : State) : (s.look).posted = s.posted := rfl
@[simp] theorem State.look_storeErr (s : State) : (s.look).storeErr = s.storeErr := rfl
@[simp] theorem State.look_ext (s : State) : (s.look).ext = s.ext := rfl
@[simp] theorem State.look_dmaWires (s : State) : (s.look).dmaWires = s.dmaWires := rfl
@[simp] theorem State.look_per (s : State) : (s.look).per = s.per := rfl
@[simp] theorem State.look_dbgAddr (s : State) : (s.look).dbgAddr = s.dbgAddr := rfl
@[simp] theorem State.look_dbgOut (s : State) : (s.look).dbgOut = s.dbgOut := rfl
@[simp] theorem State.look_irqSeen (s : State) : (s.look).irqSeen = (s.irq && (s.irqSeen || s.cur.seeIrq || !s.gie)) := rfl
@[simp] theorem State.look_draws (s : State) : (s.look).draws = s.draws := rfl
@[simp] theorem State.look_env (s : State) : (s.look).env = s.env := rfl
@[simp] theorem State.look_cur (s : State) : (s.look).cur = s.cur := rfl

/-! ## A free word drawn -/

@[simp] theorem State.drawWord_snd_cfg (s : State) : (s.drawWord.2).cfg = s.cfg := rfl
@[simp] theorem State.drawWord_snd_sup (s : State) : (s.drawWord.2).sup = s.sup := rfl
@[simp] theorem State.drawWord_snd_usr (s : State) : (s.drawWord.2).usr = s.usr := rfl
@[simp] theorem State.drawWord_snd_gie (s : State) : (s.drawWord.2).gie = s.gie := rfl
@[simp] theorem State.drawWord_snd_sleep (s : State) : (s.drawWord.2).sleep = s.sleep := rfl
@[simp] theorem State.drawWord_snd_stepBit (s : State) : (s.drawWord.2).stepBit = s.stepBit := rfl
@[simp] theorem State.drawWord_snd_breakEn (s : State) : (s.drawWord.2).breakEn = s.breakEn := rfl
@[simp] theorem State.drawWord_snd_ubreak (s : State) : (s.drawWord.2).ubreak = s.ubreak := rfl
@[simp] theorem State.drawWord_snd_trap (s : State) : (s.drawWord.2).trap = s.trap := rfl
@[simp] theorem State.drawWord_snd_halted (s : State) : (s.drawWord.2).halted = s.halted := rfl
@[simp] theorem State.drawWord_snd_lockLeft (s : State) : (s.drawWord.2).lockLeft = s.lockLeft := rfl
@[simp] theorem State.drawWord_snd_mem (s : State) : (s.drawWord.2).mem = s.mem := rfl
@[simp] theorem State.drawWord_snd_icache (s : State) : (s.drawWord.2).icache = s.icache := rfl
@[simp] theorem State.drawWord_snd_posted (s : State) : (s.drawWord.2).posted = s.posted := rfl
@[simp] theorem State.drawWord_snd_storeErr (s : State) : (s.drawWord.2).storeErr = s.storeErr := rfl
@[simp] theorem State.drawWord_snd_ext (s : State) : (s.drawWord.2).ext = s.ext := rfl
@[simp] theorem State.drawWord_snd_dmaWires (s : State) : (s.drawWord.2).dmaWires = s.dmaWires := rfl
@[simp] theorem State.drawWord_snd_per (s : State) : (s.drawWord.2).per = s.per := rfl
@[simp] theorem State.drawWord_snd_dbgAddr (s : State) : (s.drawWord.2).dbgAddr = s.dbgAddr := rfl
@[simp] theorem State.drawWord_snd_dbgOut (s : State) : (s.drawWord.2).dbgOut = s.dbgOut := rfl
@[simp] theorem State.drawWord_snd_irqSeen (s : State) : (s.drawWord.2).irqSeen = s.irqSeen := rfl
@[simp] theorem State.drawWord_snd_draws (s : State) : (s.drawWord.2).draws = s.draws + 1 := rfl
@[simp] theorem State.drawWord_snd_env (s : State) : (s.drawWord.2).env = s.env := rfl
@[simp] theorem State.drawWord_snd_cur (s : State) : (s.drawWord.2).cur = s.cur := rfl

end Sys2Proof.Machine
end

