-- ==== Sys2Proof/Laws/Ops.lean ====
section
/-!
SUPPORT. For each shared operation, one lemma that says everything it can do; later proofs cite these.
-/

namespace Sys2Proof.Machine

open Sys2Proof

/-! ## The frame of an instruction -/

theorem State.runWord_illegal (s : State) (cnd : Cond) (body : Ctx → State → Ran) :
    s.runWord false cnd body = s.takeException .illegal s.active.pc false := rfl

theorem State.runWord_skipped (s : State) {cnd : Cond} (body : Ctx → State → Ran)
    (h : condHolds cnd s.active.flags = false) : s.runWord true cnd body = s.advance := by
  simp [State.runWord, h]

theorem State.runWord_executed (s : State) {cnd : Cond} (body : Ctx → State → Ran)
    (h : condHolds cnd s.active.flags = true) :
    s.runWord true cnd body = (body ⟨s.active.pc, .whole, decide (cnd ≠ .always)⟩ s.advance).state := by
  simp [State.runWord, h]

/-- What an instruction word can do: take IllegalInstruction, only advance, or execute. -/
theorem State.runWord_cases (s : State) (legal : Bool) (cnd : Cond) (body : Ctx → State → Ran) :
    (legal = false ∧ s.runWord legal cnd body = s.takeException .illegal s.active.pc false)
    ∨ (legal = true ∧ condHolds cnd s.active.flags = false ∧ s.runWord legal cnd body = s.advance)
    ∨ (legal = true ∧ condHolds cnd s.active.flags = true ∧
        s.runWord legal cnd body = (body ⟨s.active.pc, .whole, decide (cnd ≠ .always)⟩ s.advance).state) := by
  cases legal with
  | false => exact .inl ⟨rfl, rfl⟩
  | true =>
    cases h : condHolds cnd s.active.flags with
    | false => exact .inr (.inl ⟨rfl, rfl, s.runWord_skipped body h⟩)
    | true => exact .inr (.inr ⟨rfl, rfl, s.runWord_executed body h⟩)

/-! ## Exceptions -/

theorem State.takeException_user (s : State) {c : Cause} (saved : Word) (phase : Bool) (hg : s.gie = true)
    (hc : c ≠ .break_) :
    s.takeException c saved phase = ({ s with usr := s.usr.mark c } : State).enterSupervisor saved phase := by
  simp [State.takeException, hg, hc]

theorem State.takeException_supervisor (s : State) (c : Cause) (saved : Word) (phase : Bool) (hg : s.gie = false) :
    s.takeException c saved phase =
      { s with sup := { s.sup.mark c with pc := saved, phase := phase }, halted := true, lockLeft := 0 } := by
  simp [State.takeException, hg]

/-- Taking an exception touches the two register sets, UBREAK, the mode, SLEEP, HALTED and the lock, nothing else. -/
theorem State.takeException_frame (s : State) (c : Cause) (saved : Word) (phase : Bool) :
    ∃ sup usr ub g sl h, s.takeException c saved phase =
      { s with sup := sup, usr := usr, ubreak := ub, gie := g, sleep := sl, halted := h, lockLeft := 0 } := by
  unfold State.takeException
  split
  · split
    · split
      · exact ⟨s.sup, _, s.ubreak, s.gie, s.sleep, _, rfl⟩
      · exact ⟨s.sup, _, _, _, _, s.halted, rfl⟩
    · exact ⟨s.sup, _, s.ubreak, _, _, s.halted, rfl⟩
  · exact ⟨_, s.usr, s.ubreak, s.gie, s.sleep, _, rfl⟩

/-! ## The bus -/

/-- A transaction with an address that no entry of the schedule names leaves the schedule as it is. -/
theorem State.turn_calm (s : State) (a : Word) (h : s.calm a) : s.turn a = s := by
  have hl : ∀ l : List BusFate, (∀ f ∈ l, f.addr ≠ a) → l.filterMap (BusFate.passed a) = l := by
    intro l
    induction l with
    | nil => exact fun _ => rfl
    | cons f l ih =>
      intro hf
      have hp : BusFate.passed a f = some f := by simp [BusFate.passed, hf f (by simp)]
      rw [List.filterMap_cons_some hp, ih fun g hg => hf g (by simp [hg])]
  simp [State.turn, hl _ h]

theorem State.timesOut_calm (s : State) (a : Word) (h : s.calm a) : s.timesOut a = false := by
  simp only [State.timesOut, Bool.and_eq_false_iff, List.any_eq_false]
  exact .inr fun f hf => by simp [h f hf]

theorem State.raisesErr_calm (s : State) (a : Word) (h : s.calm a) : s.raisesErr a = false := by
  simp only [State.raisesErr, List.contains_eq_mem, decide_eq_false_iff_not]
  exact fun hf => h _ hf rfl

/-- A transaction that nothing troubles: what is at the address takes it, and the machine is as it was. -/
theorem State.transact_calm (s : State) (a : Word) (h : s.calm a) : s.transact a = (targetAt s.cfg a, s) := by
  simp [State.transact, s.timesOut_calm a h, s.raisesErr_calm a h, s.turn_calm a h]

/-- A transaction fails, WBU perhaps its address, or is taken by what is at the address; what the schedule said of it is used
up. -/
theorem State.transact_cases (s : State) (a : Word) :
    (∃ w, s.transact a = (none, { s.turn a with per := { s.per with wbu := w } }))
    ∨ s.transact a = (targetAt s.cfg a, s.turn a) := by
  unfold State.transact
  dsimp only
  split
  · exact .inl ⟨a, rfl⟩
  · split
    · exact .inl ⟨s.per.wbu, rfl⟩
    · exact .inr rfl

/-- A bus read changes at most WBU, the count of free values and what is left of the schedule. -/
theorem State.busRead_frame (s : State) (a : Word) :
    ∃ l w d, (s.busRead a).2 =
      { s with cur := { s.cur with fates := l }, per := { s.per with wbu := w }, draws := d } := by
  unfold State.busRead
  rcases s.transact_cases a with ⟨w, h⟩ | h
  · rw [h]
    exact ⟨_, w, s.draws, rfl⟩
  · rw [h]
    rcases targetAt s.cfg a with _ | (_ | (_ | _ | _))
    · exact ⟨_, s.per.wbu, s.draws, rfl⟩
    · exact ⟨_, s.per.wbu, s.draws, rfl⟩
    · exact ⟨_, s.per.wbu, s.draws, rfl⟩
    · exact ⟨_, s.per.wbu, s.draws, rfl⟩
    · exact ⟨_, s.per.wbu, s.draws + 1, rfl⟩

/-- A bus write changes the peripherals, or one word of memory, or nothing, and what is left of the schedule. -/
theorem State.busWrite_cases (s : State) (a w : Word) :
    (∃ l p, (s.busWrite a w).2 = { s with cur := { s.cur with fates := l }, per := p })
    ∨ ∃ l, (s.busWrite a w).2 = { s with cur := { s.cur with fates := l }, mem := Memory.write s.mem a.toNat w } := by
  unfold State.busWrite
  rcases s.transact_cases a with ⟨v, h⟩ | h
  · rw [h]
    exact .inl ⟨_, _, rfl⟩
  · rw [h]
    rcases targetAt s.cfg a with _ | (_ | (_ | _ | _))
    · exact .inl ⟨_, s.per, rfl⟩
    · exact .inl ⟨_, _, rfl⟩
    · exact .inr ⟨_, rfl⟩
    · exact .inl ⟨_, s.per, rfl⟩
    · exact .inl ⟨_, s.per, rfl⟩

/-- Completing the store in flight: it is no longer in flight, and one bus write has happened. -/
theorem State.drainPosted_cases (s : State) :
    (s.posted = none ∧ s.drainPosted = (true, s))
    ∨ (∃ l p, s.drainPosted.2 = { s with posted := none, cur := { s.cur with fates := l }, per := p })
    ∨ (∃ l a w, s.posted = some (a, w) ∧ s.drainPosted.2 =
        { s with posted := none, cur := { s.cur with fates := l }, mem := Memory.write s.mem a.toNat w }) := by
  unfold State.drainPosted
  split
  · rename_i h
    exact .inl ⟨h, rfl⟩
  · rename_i a w h
    rcases ({ s with posted := none } : State).busWrite_cases a w with ⟨l, p, hp⟩ | ⟨l, hp⟩
    · exact .inr (.inl ⟨l, p, hp⟩)
    · exact .inr (.inr ⟨l, a, w, h, hp⟩)

theorem State.drainPosted_posted (s : State) : s.drainPosted.2.posted = none := by
  rcases s.drainPosted_cases with ⟨h, hd⟩ | ⟨l, p, hd⟩ | ⟨l, a, w, _, hd⟩
  · rw [hd]
    exact h
  · rw [hd]
  · rw [hd]

theorem State.drainPosted_none (s : State) (h : s.posted = none) : s.drainPosted = (true, s) := by
  simp [State.drainPosted, h]

theorem State.waitForStore_none (s : State) (ctx : Ctx) (h : s.posted = none) : s.waitForStore ctx = .done s := by
  simp [State.waitForStore, s.drainPosted_none h]

/-- The store of a stopped CPU: it is no longer in flight, memory or the peripherals have changed as its write says, and an
error waits to be delivered. -/
theorem State.landHeld_cases (s : State) :
    (s.drainPosted.1 = true ∧ s.landHeld = s.drainPosted.2)
    ∨ (s.drainPosted.1 = false ∧ s.landHeld = { s.drainPosted.2 with storeErr := true }) := by
  unfold State.landHeld
  rcases h : s.drainPosted with ⟨_ | _, t⟩
  · exact .inr ⟨rfl, rfl⟩
  · exact .inl ⟨rfl, rfl⟩

theorem State.landHeld_none (s : State) (h : s.posted = none) : s.landHeld = s := by
  simp [State.landHeld, s.drainPosted_none h]

theorem State.settleStore_none (s : State) (h : s.posted = none) : s.settleStore = s := by
  simp [State.settleStore, s.landHeld_none h, s.drainPosted_none h]

/-- What the end of a step does with the store in flight. -/
theorem State.settleStore_cases (s : State) :
    (s.halted = true ∧ s.settleStore = s.landHeld)
    ∨ (s.halted = false ∧ s.cur.drain = false ∧ s.settleStore = s)
    ∨ (s.halted = false ∧ s.cur.drain = true ∧ s.drainPosted.1 = true ∧ s.settleStore = s.drainPosted.2)
    ∨ (s.halted = false ∧ s.cur.drain = true ∧ s.drainPosted.1 = false
        ∧ s.settleStore = s.drainPosted.2.deliverStoreError) := by
  unfold State.settleStore
  cases hh : s.halted with
  | true => exact .inl ⟨rfl, rfl⟩
  | false =>
    cases hd : s.cur.drain with
    | false => exact .inr (.inl ⟨rfl, rfl, rfl⟩)
    | true =>
      rcases h : s.drainPosted with ⟨_ | _, t⟩
      · exact .inr (.inr (.inr ⟨rfl, rfl, rfl, rfl⟩))
      · exact .inr (.inr (.inl ⟨rfl, rfl, rfl, rfl⟩))

/-- What can run where a store may be in flight: what comes next; what comes next once the store has landed, because it would
halt; or the store's error in its place. -/
theorem State.landBeforeHalt_cases (s : State) (run : State → Host.Outcome State Fault Refusal) :
    ((s.posted = none ∨ ∀ u, run s = .next u → u.halted = false) ∧ s.landBeforeHalt run = run s)
    ∨ (s.posted ≠ none ∧ (∃ u, run s = .next u ∧ u.halted = true) ∧ s.drainPosted.1 = true
        ∧ s.landBeforeHalt run = run s.drainPosted.2)
    ∨ (s.posted ≠ none ∧ (∃ u, run s = .next u ∧ u.halted = true) ∧ s.drainPosted.1 = false
        ∧ s.landBeforeHalt run = .next s.drainPosted.2.deliverStoreError) := by
  unfold State.landBeforeHalt
  cases hr : run s with
  | fault r => exact .inl ⟨.inr (by simp), rfl⟩
  | refused r => exact .inl ⟨.inr (by simp), rfl⟩
  | next u =>
    cases hu : u.halted with
    | false => exact .inl ⟨.inr (by rintro _ ⟨⟩; exact hu), by simp [hu]⟩
    | true =>
      cases hp : s.posted with
      | none => exact .inl ⟨.inl rfl, by simp⟩
      | some p =>
        rcases h : s.drainPosted with ⟨_ | _, t⟩
        · exact .inr (.inr ⟨by simp, ⟨u, rfl, hu⟩, rfl, by simp [hu]⟩)
        · exact .inr (.inl ⟨by simp, ⟨u, rfl, hu⟩, rfl, by simp [hu]⟩)

/-- What an instruction performed in a step can do: what `exec` says, counted off a locked sequence. -/
theorem State.perform_next {i : Instr} {s t : State} :
    State.perform i s = .next t ↔ ∃ u, exec i s = .next u ∧ t = u.lockStep i := by
  unfold State.perform
  cases exec i s with
  | next u => simp [eq_comm]
  | fault r => simp
  | refused r => simp

/-! ## Other masters between the halves of a VLIW word -/

theorem State.masterWrite_held (s : State) (p : Word × Word) (h : s.busFree = false) : s.masterWrite p = s := by
  simp [State.masterWrite, h]

theorem State.dmaMove_held (s : State) (h : s.busFree = false) : s.dmaMove = s := by
  simp [State.dmaMove, h]

theorem State.dmaMoves_held (s : State) (h : s.busFree = false) (n : Nat) : State.dmaMoves n s = s := by
  induction n with
  | zero => rfl
  | succ n ih => rw [State.dmaMoves, s.dmaMove_held h, ih]

/-- What another master or the DMA controller may change: memory, the peripherals, the count of free values, what is left of the
schedule of failing transactions. -/
def State.MastersOnly (s t : State) : Prop :=
  ∃ m p d l, t = { s with mem := m, per := p, draws := d, cur := { s.cur with fates := l } }

theorem State.MastersOnly.refl (s : State) : s.MastersOnly s := ⟨s.mem, s.per, s.draws, s.cur.fates, rfl⟩

theorem State.MastersOnly.withPer (s : State) (p : Periph) : s.MastersOnly { s with per := p } :=
  ⟨s.mem, p, s.draws, s.cur.fates, rfl⟩

theorem State.MastersOnly.trans {s t u : State} (h : s.MastersOnly t) (k : t.MastersOnly u) : s.MastersOnly u := by
  obtain ⟨m, p, d, l, rfl⟩ := h
  obtain ⟨m', p', d', l', rfl⟩ := k
  exact ⟨m', p', d', l', rfl⟩

theorem State.masterWrite_frame (s : State) (p : Word × Word) : s.MastersOnly (s.masterWrite p) := by
  unfold State.masterWrite
  split
  · exact ⟨_, s.per, s.draws, s.cur.fates, rfl⟩
  · exact .refl s

theorem State.busRead_masters (s : State) (a : Word) : s.MastersOnly (s.busRead a).2 := by
  obtain ⟨l, w, d, h⟩ := s.busRead_frame a
  exact ⟨s.mem, _, d, l, h⟩

theorem State.busWrite_masters (s : State) (a w : Word) : s.MastersOnly (s.busWrite a w).2 := by
  rcases s.busWrite_cases a w with ⟨l, p, h⟩ | ⟨l, h⟩
  · exact ⟨s.mem, p, s.draws, l, h⟩
  · exact ⟨_, s.per, s.draws, l, h⟩

theorem State.dmaRead_frame (n : Nat) : ∀ s : State, s.MastersOnly (State.dmaRead n s).2 := by
  induction n with
  | zero => exact State.MastersOnly.refl
  | succ n ih =>
    intro s
    have h := s.busRead_masters s.per.dma.curSrc
    unfold State.dmaRead
    generalize s.busRead s.per.dma.curSrc = r at h ⊢
    obtain ⟨_ | v, t⟩ := r
    · exact h
    · exact h.trans ((State.MastersOnly.withPer t _).trans (ih _))

theorem State.dmaWrite_frame (l : List Word) : ∀ s : State, s.MastersOnly (State.dmaWrite l s).2 := by
  induction l with
  | nil => exact State.MastersOnly.refl
  | cons v l ih =>
    intro s
    have h := s.busWrite_masters s.per.dma.curDst v
    unfold State.dmaWrite
    generalize s.busWrite s.per.dma.curDst v = r at h ⊢
    obtain ⟨_ | _, t⟩ := r
    · exact h
    · exact h.trans ((State.MastersOnly.withPer t _).trans (ih _))

theorem State.dmaWritten_frame (s : State) : s.MastersOnly s.dmaWritten := by
  unfold State.dmaWritten
  split
  · exact .withPer s _
  · exact .withPer s _

theorem State.dmaMove_frame (s : State) : s.MastersOnly s.dmaMove := by
  have hr := State.dmaRead_frame s.per.dma.burst s
  have hw := State.dmaWrite_frame s.per.dma.buffer s
  unfold State.dmaMove
  generalize State.dmaRead s.per.dma.burst s = r at hr ⊢
  generalize State.dmaWrite s.per.dma.buffer s = w at hw ⊢
  obtain ⟨_ | _, t⟩ := r <;> obtain ⟨_ | _, u⟩ := w <;> dsimp only <;> repeat' split
  all_goals first
    | exact .refl s
    | exact hr
    | exact hr.trans (.withPer t _)
    | exact hw.trans (.withPer u _)
    | exact hw.trans u.dmaWritten_frame

theorem State.dmaMoves_frame (n : Nat) : ∀ s : State, s.MastersOnly (State.dmaMoves n s) := by
  induction n with
  | zero => exact State.MastersOnly.refl
  | succ n ih => exact fun s => s.dmaMove_frame.trans (ih _)

/-- Between the halves of a VLIW word no register, no mode and no hidden CPU state changes. -/
theorem State.grantBus_frame (s : State) : s.MastersOnly s.grantBus := by
  have h : ∀ (l : List (Word × Word)) (t : State), t.MastersOnly (l.foldl State.masterWrite t) := by
    intro l
    induction l with
    | nil => exact State.MastersOnly.refl
    | cons p l ih => exact fun t => (t.masterWrite_frame p).trans (ih _)
  exact (h _ s).trans (State.dmaMoves_frame _ _)

/-- While the bus is held, by a locked sequence or a store in flight, no other master has it. -/
theorem State.grantBus_held (s : State) (h : s.busFree = false) : s.grantBus = s := by
  have hm : ∀ l : List (Word × Word), l.foldl State.masterWrite s = s := by
    intro l
    induction l with
    | nil => rfl
    | cons p l ih => rw [List.foldl_cons, s.masterWrite_held p h, ih]
  rw [State.grantBus, hm, s.dmaMoves_held h]

/-- With nobody asking for the bus nothing happens between the halves. -/
theorem State.grantBus_quiet (s : State) (hm : s.cur.midMasters = []) (hd : s.cur.midDmaMoves = 0) : s.grantBus = s := by
  simp [State.grantBus, hm, hd, State.dmaMoves]

/-- Between the halves: nothing; or the first half's store has landed and other masters may have had the bus; or that store's
error stops the word. -/
theorem State.betweenHalves_cases (s : State) (ctx : Ctx) (g : Half) :
    (halfUsesMemory g = false ∧ s.betweenHalves ctx g = .done s)
    ∨ (halfUsesMemory g = true ∧ s.drainPosted.1 = true ∧ s.betweenHalves ctx g = .done s.drainPosted.2.grantBus)
    ∨ (halfUsesMemory g = true ∧ s.drainPosted.1 = false ∧ s.betweenHalves ctx g =
        .raised (s.drainPosted.2.takeException .busError ctx.addr (decide (ctx.slot = .second)))) := by
  unfold State.betweenHalves State.waitForStore
  cases hg : halfUsesMemory g with
  | false => exact .inl ⟨rfl, rfl⟩
  | true =>
    rcases h : s.drainPosted with ⟨_ | _, t⟩
    · exact .inr (.inr ⟨rfl, rfl, rfl⟩)
    · exact .inr (.inl ⟨rfl, rfl, rfl⟩)

theorem State.busRead_ram (s : State) (a : Word) (h : s.ramReady a) :
    s.busRead a = (some (Memory.fetch s.mem a), s) := by
  obtain ⟨hp, hk, hc⟩ := h
  simp [State.busRead, s.transact_calm a hc, targetAt, hp, hk]

theorem State.busWrite_ram (s : State) (a w : Word) (h : s.ramReady a) :
    s.busWrite a w = (true, { s with mem := Memory.write s.mem a.toNat w }) := by
  obtain ⟨hp, hk, hc⟩ := h
  simp [State.busWrite, s.transact_calm a hc, targetAt, hp, hk]

/-! ## Lines of a controller -/

/-- Bits added one by one above a number keep the number and are themselves. -/
theorem sumOfBits_testBit (f : Nat → Bool) (m : Nat) : ∀ (n a : Nat), a < 2 ^ n →
    ∀ j, ((List.range' n m).foldl (fun acc i => acc + (f i).toNat * 2 ^ i) a).testBit j
      = if j < n then a.testBit j else if j < n + m then f j else false := by
  induction m with
  | zero =>
    intro n a ha j
    simp only [List.range'_zero, List.foldl_nil]
    split
    · rfl
    · rw [Nat.testBit_lt_two_pow (Nat.lt_of_lt_of_le ha (Nat.pow_le_pow_right (by omega) (by omega)))]
      simp
      omega
  | succ m ih =>
    intro n a ha j
    have hl : a + (f n).toNat * 2 ^ n < 2 ^ (n + 1) := by
      rw [Nat.pow_succ]
      cases f n <;> simp <;> omega
    rw [List.range'_succ, List.foldl_cons, ih (n + 1) _ hl j, Nat.add_comm a, Nat.mul_comm (f n).toNat,
      Nat.testBit_two_pow_mul_add _ ha]
    by_cases h3 : j < n
    · simp [h3, Nat.lt_succ_of_lt h3]
    · by_cases h4 : j = n
      · subst h4
        cases f j <;> simp
      · have : ¬ j < n + 1 := by omega
        simp [h3, this, Nat.add_assoc, Nat.add_comm 1]

/-- `linesOf f` has line `i` as `f` says. -/
theorem linesOf_getLsbD (f : Nat → Bool) (i : Nat) (h : i < 15) : (linesOf f).getLsbD i = f i := by
  have h0 := sumOfBits_testBit f 15 0 0 (by simp) i
  rw [← List.range_eq_range'] at h0
  rw [linesOf, BitVec.getLsbD_ofNat, h0]
  simp [h]

/-! ## Write-back -/

@[simp] theorem State.readReg_gpr (s : State) (n : Fin 14) : s.readReg (.gpr n) = s.active.r[n] := rfl
@[simp] theorem State.readReg_pc (s : State) : s.readReg .pc = s.active.pc := rfl
@[simp] theorem State.readReg_cc (s : State) : s.readReg .cc = s.readCC s.gie := rfl

theorem State.writeReg_gpr (s : State) (n : Fin 14) (v : Word) :
    s.writeReg (.gpr n) v = s.withActive { s.active with r := s.active.r.set n v } := rfl

theorem State.writeReg_pc (s : State) (v : Word) : s.writeReg .pc v = s.withActive { s.active with pc := v } := rfl

/-- Write-back never touches memory, the store in flight, the peripherals or the outside. -/
theorem State.writeReg_frame (s : State) (dr : Reg) (v : Word) :
    (s.writeReg dr v).cfg = s.cfg ∧ (s.writeReg dr v).mem = s.mem ∧ (s.writeReg dr v).posted = s.posted
      ∧ (s.writeReg dr v).per = s.per ∧ (s.writeReg dr v).env = s.env ∧ (s.writeReg dr v).cur = s.cur
      ∧ (s.writeReg dr v).ext = s.ext ∧ (s.writeReg dr v).dmaWires = s.dmaWires
      ∧ (s.writeReg dr v).dbgAddr = s.dbgAddr ∧ (s.writeReg dr v).dbgOut = s.dbgOut := by
  cases dr with
  | gpr n => simp [State.writeReg, State.writeGpr]
  | pc => simp [State.writeReg, State.writePc]
  | cc =>
    simp only [State.writeReg]
    split
    · unfold State.userWriteCC
      split <;> simp
    · unfold State.haltIfAsleep State.supWriteSCC
      repeat' split
      all_goals simp

/-- The result and flags of a flag-setting instruction whose destination is a general register. -/
theorem State.finish_gpr (s : State) (conditional : Bool) (n : Fin 14) (r : AluResult) :
    s.finish conditional (.gpr n) r =
      s.withActive { s.active with
        r := s.active.r.set n r.res
        flags := if conditional then s.active.flags else r.flags } := by
  cases conditional <;>
    simp [State.finish, Reg.isGpr, State.writeReg_gpr, State.setFlags, State.withActive]

/-- With PC or CC as destination no flags are set. -/
theorem State.finish_other (s : State) (conditional : Bool) {dr : Reg} (r : AluResult) (h : dr.isGpr = false) :
    s.finish conditional dr r = s.writeReg dr r.res := by
  simp [State.finish, h]

end Sys2Proof.Machine
end

