-- ==== Sys2Proof/Laws/PerInstr.lean ====
section
/-!
SUPPORT. Statements about every instruction as syntax, one lemma per constructor. `Bit31`: a word's bit 31 says whether it
is a VLIW word (30_encoding.md R108, R110).
-/

namespace Sys2Proof.Laws

open Sys2Proof

/-- Whether an instruction is a VLIW word. -/
def isVliw (i : Instr) : Bool :=
  match i with
  | .vliw _ _ _ _ => true
  | _ => false

/-- Bit 31 of the encoding is 1 exactly for VLIW words. -/
def Bit31.Statement (i : Instr) : Prop := (encode i).getLsbD 31 = isVliw i

theorem encodeStd_bit31 (op : Nat) (dr : Reg) (cnd : Cond) (b : OpB) (h : op < 32) :
    (encodeStd op dr cnd b).getLsbD 31 = false := by
  have h1 := dr.code.isLt
  have h2 := cnd.code.isLt
  have h3 := b.bits_lt
  refine bit_eq 31 false (by omega) ?_
  simp only [Bool.toNat_false]
  omega

theorem encodeGroup_bit31 (sel : Nat) (bit27 : Bool) (payload : BitVec 22) (h : sel < 8) :
    (encodeGroup sel bit27 payload).getLsbD 31 = false := by
  have h1 := payload.isLt
  have h2 : bit27.toNat ≤ 1 := Bool.toNat_le bit27
  refine bit_eq 31 false (by omega) ?_
  simp only [Bool.toNat_false]
  omega

theorem encodeLdi_bit31 (dr : Reg) (imm : BitVec 23) : (encodeLdi dr imm).getLsbD 31 = false := by
  have h1 := dr.code.isLt
  have h2 := imm.isLt
  refine bit_eq 31 false (by omega) ?_
  simp only [Bool.toNat_false]
  omega

theorem encodeMov_bit31 (dr : Reg) (cnd : Cond) (a : Bool) (br : Reg) (b : Bool) (imm : BitVec 13) :
    (encodeMov dr cnd a br b imm).getLsbD 31 = false := by
  have h1 := dr.code.isLt
  have h2 := cnd.code.isLt
  have h3 := br.code.isLt
  have h4 := imm.isLt
  have h5 : a.toNat ≤ 1 := Bool.toNat_le a
  have h6 : b.toNat ≤ 1 := Bool.toNat_le b
  refine bit_eq 31 false (by omega) ?_
  simp only [Bool.toNat_false]
  omega

theorem encodeVliw_bit31 (c2 : Bool) (cnd : Cond2) (f g : Half) : (encodeVliw c2 cnd f g).getLsbD 31 = true := by
  have h1 := f.drBits_lt
  have h2 := f.opBits_lt
  have h3 := f.opbBits_lt
  have h4 := g.drBits_lt
  have h5 := g.opBits_lt
  have h6 := g.opbBits_lt
  have h7 := cnd.code.isLt
  have h8 : c2.toNat ≤ 1 := Bool.toNat_le c2
  refine bit_eq 31 true (by omega) ?_
  simp only [Bool.toNat_true]
  omega

theorem Bit31.vliw (c2 : Bool) (cnd : Cond2) (f g : Half) : Bit31.Statement (.vliw c2 cnd f g) :=
  encodeVliw_bit31 c2 cnd f g
theorem Bit31.ldi (dr : Reg) (imm : BitVec 23) : Bit31.Statement (.ldi dr imm) := encodeLdi_bit31 dr imm
theorem Bit31.mov (dr : Reg) (cnd : Cond) (a : Bool) (br : Reg) (b : Bool) (imm : BitVec 13) :
    Bit31.Statement (.mov dr cnd a br b imm) := encodeMov_bit31 dr cnd a br b imm
theorem Bit31.noop (bit27 : Bool) (payload : BitVec 22) : Bit31.Statement (.noop bit27 payload) :=
  encodeGroup_bit31 0 bit27 payload (by decide)
theorem Bit31.brk (bit27 : Bool) (payload : BitVec 22) : Bit31.Statement (.brk bit27 payload) :=
  encodeGroup_bit31 1 bit27 payload (by decide)
theorem Bit31.lock (bit27 : Bool) (payload : BitVec 22) : Bit31.Statement (.lock bit27 payload) :=
  encodeGroup_bit31 2 bit27 payload (by decide)
theorem Bit31.illegalNoopgrp3 (bit27 : Bool) (payload : BitVec 22) : Bit31.Statement (.illegalNoopgrp3 bit27 payload) :=
  encodeGroup_bit31 3 bit27 payload (by decide)
theorem Bit31.illegalNoopgrp4 (bit27 : Bool) (payload : BitVec 22) : Bit31.Statement (.illegalNoopgrp4 bit27 payload) :=
  encodeGroup_bit31 4 bit27 payload (by decide)
theorem Bit31.illegalNoopgrp5 (bit27 : Bool) (payload : BitVec 22) : Bit31.Statement (.illegalNoopgrp5 bit27 payload) :=
  encodeGroup_bit31 5 bit27 payload (by decide)
theorem Bit31.illegalNoopgrp6 (bit27 : Bool) (payload : BitVec 22) : Bit31.Statement (.illegalNoopgrp6 bit27 payload) :=
  encodeGroup_bit31 6 bit27 payload (by decide)
theorem Bit31.illegalNoopgrp7 (bit27 : Bool) (payload : BitVec 22) : Bit31.Statement (.illegalNoopgrp7 bit27 payload) :=
  encodeGroup_bit31 7 bit27 payload (by decide)
theorem Bit31.sub (dr : Reg) (cnd : Cond) (b : OpB) : Bit31.Statement (.sub dr cnd b) :=
  encodeStd_bit31 0 dr cnd b (by decide)
theorem Bit31.and (dr : Reg) (cnd : Cond) (b : OpB) : Bit31.Statement (.and dr cnd b) :=
  encodeStd_bit31 1 dr cnd b (by decide)
theorem Bit31.add (dr : Reg) (cnd : Cond) (b : OpB) : Bit31.Statement (.add dr cnd b) :=
  encodeStd_bit31 2 dr cnd b (by decide)
theorem Bit31.or (dr : Reg) (cnd : Cond) (b : OpB) : Bit31.Statement (.or dr cnd b) :=
  encodeStd_bit31 3 dr cnd b (by decide)
theorem Bit31.xor (dr : Reg) (cnd : Cond) (b : OpB) : Bit31.Statement (.xor dr cnd b) :=
  encodeStd_bit31 4 dr cnd b (by decide)
theorem Bit31.lsr (dr : Reg) (cnd : Cond) (b : OpB) : Bit31.Statement (.lsr dr cnd b) :=
  encodeStd_bit31 5 dr cnd b (by decide)
theorem Bit31.lsl (dr : Reg) (cnd : Cond) (b : OpB) : Bit31.Statement (.lsl dr cnd b) :=
  encodeStd_bit31 6 dr cnd b (by decide)
theorem Bit31.asr (dr : Reg) (cnd : Cond) (b : OpB) : Bit31.Statement (.asr dr cnd b) :=
  encodeStd_bit31 7 dr cnd b (by decide)
theorem Bit31.mpy (dr : Reg) (cnd : Cond) (b : OpB) : Bit31.Statement (.mpy dr cnd b) :=
  encodeStd_bit31 8 dr cnd b (by decide)
theorem Bit31.ldilo (dr : Reg) (cnd : Cond) (b : OpB) : Bit31.Statement (.ldilo dr cnd b) :=
  encodeStd_bit31 9 dr cnd b (by decide)
theorem Bit31.mpyuhi (dr : Reg) (cnd : Cond) (b : OpB) : Bit31.Statement (.mpyuhi dr cnd b) :=
  encodeStd_bit31 10 dr cnd b (by decide)
theorem Bit31.mpyshi (dr : Reg) (cnd : Cond) (b : OpB) : Bit31.Statement (.mpyshi dr cnd b) :=
  encodeStd_bit31 11 dr cnd b (by decide)
theorem Bit31.brev (dr : Reg) (cnd : Cond) (b : OpB) : Bit31.Statement (.brev dr cnd b) :=
  encodeStd_bit31 12 dr cnd b (by decide)
theorem Bit31.popc (dr : Reg) (cnd : Cond) (b : OpB) : Bit31.Statement (.popc dr cnd b) :=
  encodeStd_bit31 13 dr cnd b (by decide)
theorem Bit31.rol (dr : Reg) (cnd : Cond) (b : OpB) : Bit31.Statement (.rol dr cnd b) :=
  encodeStd_bit31 14 dr cnd b (by decide)
theorem Bit31.cmp (dr : Reg) (cnd : Cond) (b : OpB) : Bit31.Statement (.cmp dr cnd b) :=
  encodeStd_bit31 16 dr cnd b (by decide)
theorem Bit31.tst (dr : Reg) (cnd : Cond) (b : OpB) : Bit31.Statement (.tst dr cnd b) :=
  encodeStd_bit31 17 dr cnd b (by decide)
theorem Bit31.lod (dr : Reg) (cnd : Cond) (b : OpB) : Bit31.Statement (.lod dr cnd b) :=
  encodeStd_bit31 18 dr cnd b (by decide)
theorem Bit31.sto (dr : Reg) (cnd : Cond) (b : OpB) : Bit31.Statement (.sto dr cnd b) :=
  encodeStd_bit31 19 dr cnd b (by decide)
theorem Bit31.divu (dr : Reg) (cnd : Cond) (b : OpB) : Bit31.Statement (.divu dr cnd b) :=
  encodeStd_bit31 20 dr cnd b (by decide)
theorem Bit31.divs (dr : Reg) (cnd : Cond) (b : OpB) : Bit31.Statement (.divs dr cnd b) :=
  encodeStd_bit31 21 dr cnd b (by decide)
theorem Bit31.fpadd (dr : Reg) (cnd : Cond) (b : OpB) : Bit31.Statement (.fpadd dr cnd b) :=
  encodeStd_bit31 24 dr cnd b (by decide)
theorem Bit31.fpsub (dr : Reg) (cnd : Cond) (b : OpB) : Bit31.Statement (.fpsub dr cnd b) :=
  encodeStd_bit31 25 dr cnd b (by decide)
theorem Bit31.fpmpy (dr : Reg) (cnd : Cond) (b : OpB) : Bit31.Statement (.fpmpy dr cnd b) :=
  encodeStd_bit31 26 dr cnd b (by decide)
theorem Bit31.fpdiv (dr : Reg) (cnd : Cond) (b : OpB) : Bit31.Statement (.fpdiv dr cnd b) :=
  encodeStd_bit31 27 dr cnd b (by decide)
theorem Bit31.fpi2f (dr : Reg) (cnd : Cond) (b : OpB) : Bit31.Statement (.fpi2f dr cnd b) :=
  encodeStd_bit31 28 dr cnd b (by decide)
theorem Bit31.fpf2i (dr : Reg) (cnd : Cond) (b : OpB) : Bit31.Statement (.fpf2i dr cnd b) :=
  encodeStd_bit31 29 dr cnd b (by decide)
theorem Bit31.reserved1e (dr : Reg) (cnd : Cond) (b : OpB) : Bit31.Statement (.reserved1e dr cnd b) :=
  encodeStd_bit31 30 dr cnd b (by decide)
theorem Bit31.reserved1f (dr : Reg) (cnd : Cond) (b : OpB) : Bit31.Statement (.reserved1f dr cnd b) :=
  encodeStd_bit31 31 dr cnd b (by decide)

end Sys2Proof.Laws
end

