-- ==== Sys2Proof/Tests/Slice0.lean ====
section
/-!
SUPPORT. The author's own tests: ill-formed terms are refused, words written out bit by bit from the spec's formats decode to
the rows they stand for, single steps of the spec's worked values (95_test_vectors.md, 96_test_vectors_system.md), and for every
statement with hypotheses a state and operands that meet them.
-/

namespace Sys2Proof.Tests

open Sys2Proof Sys2Proof.Machine Sys2Proof.Says

/-! ## WellFormed refuses each ill-formed term (46 R202: a floating-point row has no CC or PC as destination) -/

theorem test_ill_formed_fpadd : (Instr.fpadd .cc .always (.imm 0#18)).wellFormed = false := by decide
theorem test_ill_formed_fpsub : (Instr.fpsub .pc .always (.imm 0#18)).wellFormed = false := by decide
theorem test_ill_formed_fpmpy : (Instr.fpmpy .cc .z (.imm 0#18)).wellFormed = false := by decide
theorem test_ill_formed_fpdiv : (Instr.fpdiv .pc .always (.imm 0#18)).wellFormed = false := by decide
theorem test_ill_formed_fpi2f : (Instr.fpi2f .cc .always (.imm 0#18)).wellFormed = false := by decide
theorem test_ill_formed_fpf2i : (Instr.fpf2i .pc .always (.imm 0#18)).wellFormed = false := by decide
theorem test_ill_formed_reserved1e : (Instr.reserved1e .cc .always (.imm 0#18)).wellFormed = false := by decide
theorem test_ill_formed_reserved1f : (Instr.reserved1f .pc .always (.imm 0#18)).wellFormed = false := by decide
theorem test_ill_formed_first_half :
    (Instr.vliw false .always (.unbuilt 0#3 .pc 0#5) (.group true 0#3 0#5)).wellFormed = false := by decide
theorem test_ill_formed_second_half :
    (Instr.vliw false .always (.group true 0#3 0#5) (.unbuilt 7#3 .cc 0#5)).wellFormed = false := by decide

/-! ## Decoding: bit 31, DR, opcode, condition, operand B (30_encoding.md R103 to R107; 48_vliw.md R221) -/

/-- 41 R160: SUB 1,R3. -/
theorem test_decode_sub :
    decode 0b0_0011_00000_000_0_000000000000000001#32 =
      .sub (.gpr 3) .always (.imm 1#18) := by decide

/-- 41 R161: AND 0xff,R1. -/
theorem test_decode_and :
    decode 0b0_0001_00001_000_0_000000000011111111#32 =
      .and (.gpr 1) .always (.imm 255#18) := by decide

/-- 41 R162: ADD R1,R2. -/
theorem test_decode_add :
    decode 0b0_0010_00010_000_1_0001_00000000000000#32 =
      .add (.gpr 2) .always (.reg (.gpr 1) 0#14) := by decide

/-- 41 R163: OR 0x20,CC. -/
theorem test_decode_or :
    decode 0b0_1110_00011_000_0_000000000000100000#32 =
      .or .cc .always (.imm 0x20#18) := by decide

/-- 30 R103, opcode 5'h04: XOR.NZ R4,R4. -/
theorem test_decode_xor :
    decode 0b0_0100_00100_011_1_0100_00000000000000#32 =
      .xor (.gpr 4) .nz (.reg (.gpr 4) 0#14) := by decide

/-- 30 R103, opcode 5'h05: LSR 1,R1. -/
theorem test_decode_lsr :
    decode 0b0_0001_00101_000_0_000000000000000001#32 =
      .lsr (.gpr 1) .always (.imm 1#18) := by decide

/-- 30 R103, opcode 5'h06: LSL.C -1+R5,R2. -/
theorem test_decode_lsl :
    decode 0b0_0010_00110_110_1_0101_11111111111111#32 =
      .lsl (.gpr 2) .c (.reg (.gpr 5) 0x3fff#14) := by decide

/-- 30 R103, opcode 5'h07: ASR.V -8192+PC,SP. -/
theorem test_decode_asr :
    decode 0b0_1101_00111_111_1_1111_10000000000000#32 =
      .asr (.gpr 13) .v (.reg .pc 0x2000#14) := by decide

/-- 43 R185: MPY R1,R2. -/
theorem test_decode_mpy :
    decode 0b0_0010_01000_000_1_0001_00000000000000#32 =
      .mpy (.gpr 2) .always (.reg (.gpr 1) 0#14) := by decide

/-- 41 R168: LDILO 0x5678,R3. -/
theorem test_decode_ldilo :
    decode 0b0_0011_01001_000_0_000101011001111000#32 =
      .ldilo (.gpr 3) .always (.imm 0x5678#18) := by decide

/-- 43 R186: MPYUHI R1,R2. -/
theorem test_decode_mpyuhi :
    decode 0b0_0010_01010_000_1_0001_00000000000000#32 =
      .mpyuhi (.gpr 2) .always (.reg (.gpr 1) 0#14) := by decide

/-- 43 R187: MPYSHI R1,R2. -/
theorem test_decode_mpyshi :
    decode 0b0_0010_01011_000_1_0001_00000000000000#32 =
      .mpyshi (.gpr 2) .always (.reg (.gpr 1) 0#14) := by decide

/-- 41 R169: BREV 0x2c48,R3. -/
theorem test_decode_brev :
    decode 0b0_0011_01100_000_0_000010110001001000#32 =
      .brev (.gpr 3) .always (.imm 0x2c48#18) := by decide

/-- 41 R170: POPC R1,R2. -/
theorem test_decode_popc :
    decode 0b0_0010_01101_000_1_0001_00000000000000#32 =
      .popc (.gpr 2) .always (.reg (.gpr 1) 0#14) := by decide

/-- 41 R171: ROL 16,R7. -/
theorem test_decode_rol :
    decode 0b0_0111_01110_000_0_000000000000010000#32 =
      .rol (.gpr 7) .always (.imm 16#18) := by decide

/-- 42 R180: MOV uR3,R1. -/
theorem test_decode_mov :
    decode 0b0_0001_01111_000_0_0011_1_0000000000000#32 =
      .mov (.gpr 1) .always false (.gpr 3) true 0#13 := by decide

/-- 41 R172: CMP.Z 2,R1. -/
theorem test_decode_cmp :
    decode 0b0_0001_10000_010_0_000000000000000010#32 =
      .cmp (.gpr 1) .z (.imm 2#18) := by decide

/-- 30 R103, opcode 5'h11: TST.GE R2,CC. -/
theorem test_decode_tst :
    decode 0b0_1110_10001_101_1_0010_00000000000000#32 =
      .tst .cc .ge (.reg (.gpr 2) 0#14) := by decide

/-- 47 R210: LOD 4(SP),R0. -/
theorem test_decode_lod :
    decode 0b0_0000_10010_000_1_1101_00000000000100#32 =
      .lod (.gpr 0) .always (.reg (.gpr 13) 4#14) := by decide

/-- 47 R211: STO.Z R0,(R2). -/
theorem test_decode_sto :
    decode 0b0_0000_10011_010_1_0010_00000000000000#32 =
      .sto (.gpr 0) .z (.reg (.gpr 2) 0#14) := by decide

/-- 44 R190: DIVU R1,R2. -/
theorem test_decode_divu :
    decode 0b0_0010_10100_000_1_0001_00000000000000#32 =
      .divu (.gpr 2) .always (.reg (.gpr 1) 0#14) := by decide

/-- 44 R191: DIVS 7,R2. -/
theorem test_decode_divs :
    decode 0b0_0010_10101_000_0_000000000000000111#32 =
      .divs (.gpr 2) .always (.imm 7#18) := by decide

/-- 42 R181: LDI -1,R2. -/
theorem test_decode_ldi :
    decode 0b0_0010_1011_11111111111111111111111#32 =
      .ldi (.gpr 2) 0x7fffff#23 := by decide

/-- 45 R195: NOOP. -/
theorem test_decode_noop :
    decode 0b0_1111_11000_0000000000000000000000#32 =
      .noop true 0#22 := by decide

/-- 45 R196: BREAK, bit 27 = 0. -/
theorem test_decode_break :
    decode 0b0_1110_11001_0000000000000000000000#32 =
      .brk false 0#22 := by decide

/-- 45 R197: LOCK. -/
theorem test_decode_lock :
    decode 0b0_1111_11010_0000000000000000000000#32 =
      .lock true 0#22 := by decide

/-- 45 R198: selector 3. -/
theorem test_decode_illegalNoopgrp3 :
    decode 0b0_1111_11011_0000000000000000000001#32 =
      .illegalNoopgrp3 true 1#22 := by decide

/-- 45 R198: selector 4. -/
theorem test_decode_illegalNoopgrp4 :
    decode 0b0_1110_11100_0000000000000000000000#32 =
      .illegalNoopgrp4 false 0#22 := by decide

/-- 45 R198: selector 5. -/
theorem test_decode_illegalNoopgrp5 :
    decode 0b0_1111_11101_0000000000000000000000#32 =
      .illegalNoopgrp5 true 0#22 := by decide

/-- 45 R198: selector 6. -/
theorem test_decode_illegalNoopgrp6 :
    decode 0b0_1111_11110_0000000000000000000000#32 =
      .illegalNoopgrp6 true 0#22 := by decide

/-- 45 R198: selector 7. -/
theorem test_decode_illegalNoopgrp7 :
    decode 0b0_1111_11111_1111111111111111111111#32 =
      .illegalNoopgrp7 true 0x3fffff#22 := by decide

/-- 46 R200: 0x16044000. -/
theorem test_decode_fpadd :
    decode 0b0_0010_11000_000_1_0001_00000000000000#32 =
      .fpadd (.gpr 2) .always (.reg (.gpr 1) 0#14) := by decide

/-- 46 R200, opcode 5'h19. -/
theorem test_decode_fpsub :
    decode 0b0_0000_11001_001_0_000000000000000000#32 =
      .fpsub (.gpr 0) .lt (.imm 0#18) := by decide

/-- 46 R200, opcode 5'h1a. -/
theorem test_decode_fpmpy :
    decode 0b0_1101_11010_100_0_000000000000000000#32 =
      .fpmpy (.gpr 13) .gt (.imm 0#18) := by decide

/-- 46 R200, opcode 5'h1b. -/
theorem test_decode_fpdiv :
    decode 0b0_0001_11011_000_1_1110_00000000000001#32 =
      .fpdiv (.gpr 1) .always (.reg .cc 1#14) := by decide

/-- 46 R200, opcode 5'h1c. -/
theorem test_decode_fpi2f :
    decode 0b0_0001_11100_000_0_100000000000000000#32 =
      .fpi2f (.gpr 1) .always (.imm 0x20000#18) := by decide

/-- 46 R200, opcode 5'h1d. -/
theorem test_decode_fpf2i :
    decode 0b0_0001_11101_000_0_000000000000000000#32 =
      .fpf2i (.gpr 1) .always (.imm 0#18) := by decide

/-- 46 R201, opcode 5'h1e. -/
theorem test_decode_reserved1e :
    decode 0b0_0001_11110_000_0_000000000000000000#32 =
      .reserved1e (.gpr 1) .always (.imm 0#18) := by decide

/-- 46 R201, opcode 5'h1f. -/
theorem test_decode_reserved1f :
    decode 0b0_1100_11111_000_0_000000000000000000#32 =
      .reserved1f (.gpr 12) .always (.imm 0#18) := by decide

/-- 48 R233: CMP.Z R1,R2 | MOV.Z R1,R3. -/
theorem test_decode_vliw :
    decode 0b1_0010_10000_1_10_10001_0011_01111_10001#32 =
      .vliw true .z (.std .cmp (.gpr 2) (.reg (.gpr 1))) (.mov (.gpr 3) (.reg (.gpr 1))) := by decide

/-- The widest operands round-trip through the encoder. -/
theorem test_encode_mov : encode (.mov .pc .always true (.gpr 1) false 0#13) = 0x7bc44000#32 := by decide

/-- The host's question answers by the decoder. -/
theorem test_table_word : decodeTableWord 32 0x18000001 = some (.sub (.gpr 3) .always (.imm 1#18)) := by decide

/-! ## Single steps -/

/-- The supervisor's state after reset with some registers and flags given. -/
def sup (l : List (Fin 14 × Word)) (f : Flags) : State :=
  l.foldl (fun s p => s.writeGpr false p.1 p.2) (State.reset.setFlags f)

/-- The same in user mode, at address 0x100. -/
def user (l : List (Fin 14 × Word)) (f : Flags) : State :=
  let s := { State.reset with gie := true, usr := { State.reset.usr with pc := 0x100#32 } }
  l.foldl (fun s p => s.writeGpr true p.1 p.2) (s.setFlags f)

/-- No flag. -/
def f0 : Flags := ⟨false, false, false, false⟩

/-- The state that execution of a word leaves; the state itself where it stops. -/
def ran (w : Word) (s : State) : State :=
  match exec (decode w) s with
  | .next t => t
  | .fault _ => s
  | .refused _ => s

/-- A register, Z, C, N, V and the PC of the running mode. -/
def seen (s : State) (n : Fin 14) : Word × List Bool × Word :=
  (s.active.r[n], [s.active.flags.z, s.active.flags.c, s.active.flags.n, s.active.flags.v], s.active.pc)

/-- V1. -/
theorem test_sub_overflow :
    seen (ran 0x18000001#32 (sup [(3, 0x80000000#32)] f0)) 3 = (0x7fffffff#32, [false, false, false, true], 0x101#32) := by decide

/-- V1. -/
theorem test_sub_same :
    seen (ran 0x18048000#32 (sup [(2, 7#32), (3, 7#32)] ⟨false, true, true, true⟩)) 3 = (0#32, [true, false, false, false], 0x101#32) := by decide

/-- V1. -/
theorem test_add_carry_overflow :
    seen (ran 0x10844000#32 (sup [(1, 0x80000000#32), (2, 0x80000000#32)] f0)) 2 = (0#32, [true, true, false, true], 0x101#32) := by decide

/-- V12. -/
theorem test_add_to_pc :
    seen (ran 0x78800005#32 (sup [] ⟨false, true, true, false⟩)) 0 = (0#32, [false, true, true, false], 0x106#32) := by decide

/-- R161. -/
theorem test_and :
    seen (ran 0x084000ff#32 (sup [(1, 0x12345678#32)] ⟨false, true, false, true⟩)) 1 = (0x78#32, [false, false, false, false], 0x101#32) := by decide

/-- V2. -/
theorem test_xor :
    seen (ran 0x09048000#32 (sup [(1, 0xaaaaaaaa#32), (2, 0x55555555#32)] f0)) 1 = (0xffffffff#32, [false, false, true, false], 0x101#32) := by decide

/-- V2. -/
theorem test_tst :
    seen (ran 0x24400200#32 (sup [(4, 0x220#32)] ⟨false, true, true, false⟩)) 4 = (0x220#32, [false, false, false, false], 0x101#32) := by decide

/-- V3. -/
theorem test_lsr_32 :
    seen (ran 0x11400020#32 (sup [(2, 0x80000005#32)] f0)) 2 = (0#32, [true, true, false, true], 0x101#32) := by decide

/-- V3. -/
theorem test_lsr_1 :
    seen (ran 0x11400001#32 (sup [(2, 0x80000005#32)] f0)) 2 = (0x40000002#32, [false, true, false, true], 0x101#32) := by decide

/-- V3. -/
theorem test_lsl_31 :
    seen (ran 0x1180001f#32 (sup [(2, 0xa0000003#32)] f0)) 2 = (0x80000000#32, [false, true, true, false], 0x101#32) := by decide

/-- V3. -/
theorem test_lsl_33 :
    seen (ran 0x11800021#32 (sup [(2, 0xa0000003#32)] f0)) 2 = (0#32, [true, false, false, true], 0x101#32) := by decide

/-- V3. -/
theorem test_asr_31 :
    seen (ran 0x11c0001f#32 (sup [(2, 0x80000005#32)] f0)) 2 = (0xffffffff#32, [false, false, true, false], 0x101#32) := by decide

/-- V3. -/
theorem test_asr_32 :
    seen (ran 0x11c00020#32 (sup [(2, 0x80000005#32)] f0)) 2 = (0xffffffff#32, [false, true, true, false], 0x101#32) := by decide

/-- R168. -/
theorem test_ldilo :
    seen (ran 0x1a405678#32 (sup [(3, 0x12340000#32)] f0)) 3 = (0x12345678#32, [false, false, false, false], 0x101#32) := by decide

/-- R169. -/
theorem test_brev :
    seen (ran 0x1b002c48#32 (sup [] ⟨true, true, true, true⟩)) 3 = (0x12340000#32, [true, true, true, true], 0x101#32) := by decide +kernel

/-- R170. -/
theorem test_popc :
    seen (ran 0x13444000#32 (sup [(1, 0xf0f0#32)] f0)) 2 = (8#32, [false, false, false, false], 0x101#32) := by decide

/-- V4. -/
theorem test_rol :
    seen (ran 0x3b83fff8#32 (sup [(7, 0x12345678#32)] f0)) 7 = (0x78123456#32, [false, false, false, false], 0x101#32) := by decide

/-- V1. -/
theorem test_cmp_below :
    seen (ran 0x04000001#32 (sup [(0, 0#32)] f0)) 0 = (0#32, [false, true, true, false], 0x101#32) := by decide

/-- V12. -/
theorem test_cmp_pc :
    seen (ran 0x7c000101#32 (sup [] f0)) 0 = (0#32, [true, false, false, false], 0x101#32) := by decide

/-- R181. -/
theorem test_ldi :
    seen (ran 0x15ffffff#32 (sup [] f0)) 2 = (0xffffffff#32, [false, false, false, false], 0x101#32) := by decide

/-- R185. -/
theorem test_mpy :
    seen (ran 0x12044000#32 (sup [(1, 6#32), (2, 7#32)] f0)) 2 = (42#32, [false, false, false, false], 0x101#32) := by decide

/-- R186. -/
theorem test_mpyuhi :
    seen (ran 0x12844000#32 (sup [(1, 0xffffffff#32), (2, 0xffffffff#32)] f0)) 2 = (0xfffffffe#32, [false, false, true, false], 0x101#32) := by decide

/-- R187. -/
theorem test_mpyshi :
    seen (ran 0x12c44000#32 (sup [(1, 5#32), (2, 0xffffffff#32)] f0)) 2 = (0xffffffff#32, [false, false, true, false], 0x101#32) := by decide

/-- R210. -/
theorem test_lod :
    seen (ran 0x14844000#32 ({ sup [(1, 0x2000#32)] f0 with mem := [(0x2000, 0xaa#32)] })) 2 = (0xaa#32, [false, false, false, false], 0x101#32) := by decide

/-- R210: LOD (PC),PC. -/
theorem test_lod_pc :
    seen (ran 0x7c87c000#32 ({ sup [] f0 with mem := [(0x101, 0x4000#32)] })) 0 = (0#32, [false, false, false, false], 0x4000#32) := by decide

/-- R180. -/
theorem test_mov_user_pc_reads_next :
    seen (ran 0x03c3c001#32 (user [] f0)) 0 = (0x102#32, [false, false, false, false], 0x101#32) := by decide

/-- R195. -/
theorem test_noop :
    seen (ran 0x7e000000#32 (sup [] ⟨true, true, true, true⟩)) 0 = (0#32, [true, true, true, true], 0x101#32) := by decide

/-- V13. -/
theorem test_vliw_cmp_mov :
    seen (ran 0x94344df1#32 (sup [(1, 7#32), (2, 8#32)] ⟨true, false, false, false⟩)) 3 = (0#32, [false, false, false, false], 0x101#32) := by decide

/-- V13. -/
theorem test_vliw_negate :
    seen (ran 0x8903c441#32 (sup [(1, 5#32)] f0)) 1 = (0xfffffffb#32, [false, false, true, false], 0x101#32) := by decide

/-- V7, R190: 100 / 7; C and V are anyone's guess. -/
theorem test_divu : (ran 0x15044000#32 (sup [(1, 7#32), (2, 100#32)] f0)).sup.r[2] = 14#32 := by decide

/-- V7, R191: -7 / 2 rounds toward zero. -/
theorem test_divs : (ran 0x15444000#32 (sup [(1, 2#32), (2, 0xfffffff9#32)] f0)).sup.r[2] = 0xfffffffd#32 := by decide

/-- R180: MOV uR3,R1. -/
theorem test_mov_from_user :
    (ran 0x0bc0e000#32 ((sup [] f0).writeGpr true 3 0x77#32)).sup.r[1] = 0x77#32 := by decide

/-- V8, R211: STO R2,(R1) posts the word. -/
theorem test_sto :
    (ran 0x14c44000#32 (sup [(1, 0x2000#32), (2, 0x55#32)] f0)).posted = some (0x2000#32, 0x55#32) := by decide

/-- V14: OR 0x20,CC returns to user mode, every cause bit of uCC cleared. -/
theorem test_or_returns_to_user :
    let t := ran 0x70c00020#32 { sup [] f0 with trap := true, ubreak := true }
    (t.gie, t.readCC true, t.sup.pc) = (true, 0x20#32, 0x101#32) := by decide

/-- V14: AND -33,CC in user mode traps. -/
theorem test_and_traps :
    let t := ran 0x7043ffdf#32 (user [] ⟨false, true, false, true⟩)
    (t.gie, t.readCC true, t.usr.pc) = (false, 0x22a#32, 0x101#32) := by decide

/-- R196, R327: BREAK in user mode. -/
theorem test_break_user :
    let t := ran 0x7e400000#32 (user [] f0)
    (t.gie, t.ubreak, t.usr.pc, t.halted) = (false, true, 0x100#32, false) := by decide

/-- R328: BREAK in supervisor mode. -/
theorem test_break_supervisor :
    let t := ran 0x7e400000#32 (sup [] f0)
    (t.halted, t.sup.pc, t.readCC false) = (true, 0x100#32, 0#32) := by decide

/-- R197: LOCK. -/
theorem test_lock : (ran 0x7e800000#32 (sup [] f0)).lockLeft = 3 := by decide

/-- V10, R200: 0x16044000 in user mode is an illegal instruction. -/
theorem test_fpadd_illegal :
    let t := ran 0x16044000#32 (user [] f0)
    (t.gie, t.usr.ill, t.usr.pc) = (false, true, 0x100#32) := by decide

/-- R198: an undefined word of the NOOP space halts the supervisor. -/
theorem test_noop_space_illegal :
    let t := ran 0x7ec00000#32 (sup [] f0)
    (t.halted, t.sup.ill, t.sup.pc) = (true, true, 0x100#32) := by decide

/-- V13: DIVU R1,R2 | ADD 1,R4 with R1 = 0 in user mode: PHASE set. -/
theorem test_vliw_first_half_divides_by_zero :
    let t := ran 0x95045041#32 (user [(2, 9#32), (4, 1#32)] f0)
    (t.gie, t.readCC true, t.usr.pc, t.usr.r[4]) = (false, 0x2820#32, 0x100#32, 1#32) := by decide

/-- V8: LOD where nothing answers. -/
theorem test_lod_bus_error :
    let s := { user [(1, 0x3000#32)] f0 with cfg := { Config.standard with platform := [] } }
    ((ran 0x14844000#32 s).usr.busErr, (ran 0x14844000#32 s).usr.pc) = (true, 0x100#32) := by decide

/-- V16: writing 0x800f000f to the controller enables four lines and MIE, clearing their states. -/
theorem test_pic_write :
    (Pic.write ⟨false, 0#15, 0x1f#15⟩ 0x800f000f#32 0#15).read = 0x800f0010#32 := by decide

/-- V1 through the whole step: the placed word is fetched, decoded and executed. -/
theorem test_step_runs_placed_word :
    (match step ((sup [(3, 5#32)] f0).withFetchWord 32 0x18000001) with
      | .next t => seen t 3
      | .fault _ => (0#32, [], 0#32)
      | .refused _ => (0#32, [], 0#32)) = (4#32, [false, false, false, false], 0x101#32) := by decide

/-- Memory after reset is in its canonical form (20_memory.md R70). -/
theorem test_reset_memory_wf : Memory.wf State.reset.mem = true := by decide

/-! ## Every statement's hypotheses can be met -/

/-- The next state of an outcome. -/
def nextOf (o : Host.Outcome State Fault Refusal) : Option State :=
  match o with
  | .next t => some t
  | .fault _ => none
  | .refused _ => none

theorem eq_next {o : Host.Outcome State Fault Refusal} {t : State} (h : nextOf o = some t) : o = .next t := by
  cases o with
  | next u => exact congrArg _ (Option.some.inj h)
  | fault _ => cases h
  | refused _ => cases h

/-- Supervisor mode after reset. -/
def sv : State := State.reset

/-- User mode at 0x100. -/
def us : State := user [] f0

/-- A state with every flag set. -/
def allFlags : State := sup [] ⟨true, true, true, true⟩

/-- A build without the optional units. -/
def bare : State :=
  { State.reset with
    cfg := { Config.standard with
      implementMpy := 0
      implementDivide := false
      optVliw := false
      implementLock := false } }

/-- Halted in user mode. -/
def held : State := { us with halted := true }

/-- A machine on which nothing answers outside the peripherals. -/
def empty : State := { State.reset with cfg := { Config.standard with platform := [] } }

/-- The ZipBones container. -/
def bones : State := { us with cfg := { Config.standard with container := .zipBones } }

/-- A machine whose schedule for this step is `l`. -/
def troubled (l : List BusFate) : State := { sv with cur := { sv.cur with fates := l } }

/-- Two words of ROM, one that errs on a write, and a device; RAM from 3 on. -/
def mapped : State :=
  { sv with cfg := { Config.standard with
      platform := [⟨0, 1, .rom false⟩, ⟨1, 1, .rom true⟩, ⟨2, 1, .device⟩, ⟨3, 0xbffffffd, .ram⟩] } }

theorem calm_of_nil {s : State} (a : Word) (h : s.cur.fates = []) : s.calm a := by simp [State.calm, h]

theorem ramReady_last : sv.ramReady 0xbfffffff#32 := ⟨by decide, by decide, calm_of_nil _ rfl⟩

theorem ramReady_first : sv.ramReady 0#32 := ⟨by decide, by decide, calm_of_nil _ rfl⟩

theorem witness_DecodeOfEncode :
    (Instr.fpadd (.gpr 13) .v (.reg .pc 0x3fff#14)).wellFormed = true
    ∧ (Instr.vliw true .nz (.unbuilt 7#3 (.gpr 13) 31#5) (.group true 7#3 31#5)).wellFormed = true := by decide

theorem witness_ConditionsAfterCompare :
    condHolds .always (own sv).flags = true ∧ (own (ran (encode (.cmp .pc .always (.reg (.gpr 13) 0#14))) sv)).flags.v = false
    ∧ withOwn sv { own sv with flags := ⟨true, true, true, true⟩ } = allFlags
    ∧ allFlags.cfg.implementLock = true ∧ allFlags.cfg.pipelined = true := by decide

theorem witness_FalseConditionOnlyAdvances :
    (condHolds .v (own sv).flags = false ∧ sv.cfg.implementMpy ≠ 0 ∧ sv.cfg.implementDivide = true)
    ∧ condHolds .z (own bare).flags = false ∧ bare.cfg.implementMpy = 0 ∧ bare.cfg.implementDivide = false := by
  decide

theorem witness_FalseConditionOnlyAdvances_rows :
    Instr.sto ∈ conditionalRows ∧ Instr.mpyshi ∈ multiplyRows ∧ Instr.divs ∈ divideRows ∧ Instr.reserved1f ∈ unbuiltRows := by
  simp [conditionalRows, multiplyRows, divideRows, unbuiltRows]

/-- The state of the witness: SUB 1,R3 stands where the next step fetches. -/
def placed : State := sv.withFetchWord 32 0x18000001

/-- BREAK stands where the supervisor's next step fetches, a store is in flight. -/
def breaking (a : Word) : State := { sv.withFetchWord 32 0x7e400000 with posted := some (a, 7#32) }

theorem witness_StepRunsTheDecodedInstruction :
    (Undisturbed placed ∧ Executing (ready placed)
      ∧ (ready placed).fetch = (some 0x18000001#32, (ready placed).fetch.2) ∧ (ready placed).fetch.2.posted = none)
    ∧ Undisturbed (breaking 3#32) ∧ Executing (ready (breaking 3#32))
    ∧ ((ready (breaking 3#32)).fetch = (some 0x7e400000#32, (ready (breaking 3#32)).fetch.2)
      ∧ (ready (breaking 3#32)).fetch.2.posted ≠ none
      ∧ (ran 0x7e400000#32 (issued (ready (breaking 3#32)).fetch.2 0x7e400000#32)).halted = true
      ∧ (issued (ready (breaking 3#32)).fetch.2 0x7e400000#32).drainPosted.1 = true
      ∧ (issued (ready (breaking 0xffffffff#32)).fetch.2 0x7e400000#32).drainPosted.1 = false) :=
  ⟨⟨⟨by decide, by decide⟩, ⟨by decide, by decide, by decide, by decide⟩, by decide, by decide⟩,
    ⟨by decide, by decide⟩, ⟨by decide, by decide, by decide, by decide⟩, by decide⟩

/-- R82, R314: the store lands before a BREAK halts; one that errs stops the CPU before the BREAK, at its address. -/
theorem test_store_lands_before_break :
    (nextOf (step (breaking 3#32))).map (fun t => (t.halted, Memory.fetch t.mem 3#32, t.sup.busErr)) = some (true, 7#32, false)
    ∧ (nextOf (step (breaking 0xffffffff#32))).map (fun t => (t.halted, t.sup.pc, t.sup.busErr)) = some (true, 0x100#32, true) := by
  decide

/-- A PC in the peripheral space where no register is. -/
def lost : State := sv.writePc false 0xffffffff#32

/-- The same in user mode. -/
def lostUser : State := us.writePc true 0xffffffff#32

theorem witness_FetchPrefersTheCache :
    (sv.cfg.pipelined = true
      ∧ Memory.read { sv with icache := [(0x100, 7#32)] }.icache (own sv).pc.toNat = some 7#32)
    ∧ (Memory.read sv.icache (own sv).pc.toNat = none ∧ sv.ramReady (own sv).pc)
    ∧ (Undisturbed lost ∧ Executing (ready lost) ∧ (ready lost).fetch = (none, (ready lost).fetch.2)
      ∧ (ready lost).fetch.2.gie = false ∧ (ready lost).fetch.2.drainPosted.1 = true)
    ∧ Undisturbed lostUser ∧ Executing (ready lostUser) ∧ (ready lostUser).fetch = (none, (ready lostUser).fetch.2)
      ∧ (ready lostUser).fetch.2.gie = true :=
  ⟨by decide, ⟨by decide, by decide, by decide, calm_of_nil _ rfl⟩,
    ⟨⟨by decide, by decide⟩, ⟨by decide, by decide, by decide, by decide⟩, by decide, by decide, by decide⟩,
    ⟨by decide, by decide⟩, ⟨by decide, by decide, by decide, by decide⟩, by decide, by decide⟩

/-- The hypotheses of the ALU statements: the condition holds, in either mode, in every build. -/
def runsUnder (cnd : Cond) : Bool := condHolds cnd (own allFlags).flags && condHolds .always (own us).flags

theorem witness_SubWritesTheDifference : runsUnder .c = true ∧ anyBuild allFlags := ⟨by decide, trivial⟩
theorem witness_AddWritesTheSum : runsUnder .z = true ∧ anyBuild allFlags := ⟨by decide, trivial⟩
theorem witness_LogicWritesTheBitwiseResult : runsUnder .lt = true ∧ anyBuild allFlags := ⟨by decide, trivial⟩
theorem witness_LsrShiftsRightLogically : runsUnder .v = true ∧ anyBuild allFlags := ⟨by decide, trivial⟩
theorem witness_LslShiftsLeft : runsUnder .v = true ∧ anyBuild allFlags := ⟨by decide, trivial⟩
theorem witness_AsrShiftsRightArithmetically : runsUnder .v = true ∧ anyBuild allFlags := ⟨by decide, trivial⟩
theorem witness_PopcCountsTheOneBits : runsUnder .c = true ∧ (0x80000000#32).getLsbD 31 = true := by decide
theorem witness_RolRotatesLeft : runsUnder .z = true ∧ (31 : Nat) < 32 := by decide
theorem witness_LdiloAndBrevKeepTheFlags : runsUnder .z = true ∧ (15 : Nat) < 16 := by decide
theorem witness_CompareSetsOnlyFlags : runsUnder .c = true := by decide
theorem witness_MultipliesWriteTheProduct : sv.cfg.implementMpy ≠ 0 ∧ runsUnder .z = true := by decide
theorem witness_DividesWriteTheQuotient :
    sv.cfg.implementDivide = true ∧ condHolds .always (own sv).flags = true ∧ operandB sv (.imm 0x3ffff#18) ≠ 0#32 := by
  decide
theorem witness_DivideByZeroIsTaken :
    us.cfg.implementDivide = true ∧ condHolds .ge (own us).flags = true ∧ operandB us (.reg (.gpr 13) 0#14) = 0#32 := by
  decide

theorem witness_MovMovesBetweenTheSets :
    (condHolds .always (own us).flags = true ∧ us.gie = true)
    ∧ (condHolds .always (own sv).flags = true ∧ sv.gie = false) := by decide

theorem witness_UnbuiltUnitsAreIllegal :
    bare.cfg.implementMpy = 0 ∧ bare.cfg.implementDivide = false ∧ bare.cfg.implementLock = false
    ∧ bare.cfg.optVliw = false := by decide

theorem witness_BreakSwitchesOrHalts :
    (us.gie = true ∧ us.breakEn = false) ∧ sv.gie = false
    ∧ ({ us with breakEn := true } : State).breakEn = true := by decide

theorem witness_LockHoldsTheBus :
    (sv.cfg.implementLock = true ∧ sv.cfg.pipelined = true) ∧ ({ sv with lockLeft := 1 } : State).lockLeft ≠ 0
    ∧ (sv.halted = false ∧ sv.sleep = false ∧ sv.cur.host = none)
    ∧ ({ sv with cur := { Env.quiet with host := some (.writeCtrl 0x440#32) } } : State).cur.host = some (.writeCtrl 0x440#32)
    ∧ (0x440#32).getLsbD 6 = true := by
  decide

theorem witness_UnbuiltOpcodesAreIllegal :
    Instr.reserved1f ∈ unbuiltRows ∧ Instr.illegalNoopgrp7 ∈ undefinedGroupRows := by
  constructor <;> simp [unbuiltRows, undefinedGroupRows]

theorem witness_FloatingPointSpaceByWord :
    ((0x7e000000#32).getLsbD 31 = false ∧ (0x7e000000#32).extractLsb' 25 2 = 3#2
      ∧ (0x7ec00000#32).getLsbD 31 = false ∧ (0x7ec00000#32).extractLsb' 25 2 = 3#2
      ∧ (0x16000000#32).getLsbD 31 = false ∧ (0x16000000#32).extractLsb' 25 2 = 3#2)
    ∧ (0x7e000000#32).extractLsb' 28 3 = 7#3 ∧ (0x7e000000#32).extractLsb' 22 3 = 0#3 ∧ (0x7e400000#32).extractLsb' 22 3 = 1#3
    ∧ (0x7e800000#32).extractLsb' 22 3 = 2#3
    ∧ ¬((0x7ec00000#32).extractLsb' 28 3 = 7#3 ∧ ((0x7ec00000#32).extractLsb' 22 3).toNat ≤ 2)
    ∧ ¬((0x16000000#32).extractLsb' 28 3 = 7#3 ∧ ((0x16000000#32).extractLsb' 22 3).toNat ≤ 2) := by decide

theorem witness_LoadReadsMemory :
    (condHolds .always (own sv).flags = true ∧ sv.posted = none ∧ sv.ramReady (operandB sv (.imm 0#18)))
    ∧ sv.busRead (operandB sv (.imm 0#18)) = (some (Memory.fetch sv.mem 0#32), sv)
    ∧ mapped.answersAs 0#32 (.rom false) ∧ mapped.answersAs 1#32 (.rom true) ∧ mapped.answersAs 2#32 .device
    ∧ sv.cfg.periphBase = 0xc0000000#32 ∧ HasRegister sv.cfg 0 ∧ HasRegister sv.cfg 19 ∧ sv.calm (registerAddress 19) :=
  ⟨⟨by decide, by decide, ramReady_first⟩, rfl, ⟨by decide, by decide, calm_of_nil _ rfl⟩,
    ⟨by decide, by decide, calm_of_nil _ rfl⟩, ⟨by decide, by decide, calm_of_nil _ rfl⟩, by decide,
    by unfold HasRegister; decide, by unfold HasRegister; decide, calm_of_nil _ rfl⟩

/-- The bus watchdog ends the first access to address 5. -/
def slow : State := troubled [⟨5#32, 0, .clocks 1001⟩]

/-- The second access to address 5 errs. -/
def secondErrs : State := troubled [⟨5#32, 1, .err⟩]

theorem witness_LoadBusErrorIsTaken :
    (condHolds .always (own sv).flags = true ∧ sv.posted = none ∧ sv.cfg.periphBase = 0xc0000000#32
      ∧ sv.busRead (operandB sv (.imm 0x3ffff#18)) = (none, sv))
    ∧ (slow.timesOut 5#32 = true ∧ sv.cfg.periphBase = 0xc0000000#32)
    ∧ BusFails sv (operandB sv (.imm 0x3ffff#18)) ∧ BusFails sv 0xc0000014#32 ∧ BusFails empty 0xbfffffff#32
    ∧ BusFails slow 5#32 ∧ BusFails (troubled [⟨0xc0000000#32, 0, .err⟩]) 0xc0000000#32
    ∧ NothingAt bones.cfg 0xc0000000#32
    ∧ (secondErrs.turn 5#32).cur.fates = [⟨5#32, 0, .err⟩] := by
  refine ⟨by decide, by decide, .inr (.inr (.inr ⟨by decide, ?_⟩)), .inr (.inr (.inr ⟨by decide, ?_⟩)),
    .inr (.inr (.inl (by decide))), .inl (by decide), .inr (.inl (by decide)), .inr ⟨by decide, ?_⟩, by decide⟩
  · intro k ⟨_, hk⟩ h
    have := congrArg BitVec.toNat h
    simp [registerAddress, operandB] at this
    omega
  · intro k ⟨_, hk⟩ h
    have := congrArg BitVec.toNat h
    simp [registerAddress] at this
    omega
  · intro k ⟨hc, _⟩
    cases hc

/-- R362: the supervisor's LOD of 5 times out; WBU holds the address. -/
theorem test_lod_times_out :
    let t := ran (encode (.lod (.gpr 1) .always (.imm 5#18))) slow
    (t.halted, t.sup.busErr, t.per.wbu, t.sup.pc) = (true, true, 5#32, 0x100#32) := by decide

/-- R362: of two LODs of one address in one word only the second errs, or only the first. -/
theorem test_each_transaction_may_fail :
    let i : Instr := .vliw false .always (.std .lod (.gpr 0) (.imm 5#4)) (.std .lod (.gpr 1) (.imm 5#4))
    let seenBy (s : State) := (nextOf (exec i { s with mem := [(5, 9#32)] })).map fun t => (t.sup.r[0], t.sup.busErr, t.sup.phase)
    seenBy secondErrs = some (9#32, true, false) ∧ seenBy (troubled [⟨5#32, 0, .err⟩]) = some (0#32, true, true)
    ∧ seenBy (troubled [⟨5#32, 2, .err⟩]) = some (9#32, false, false) := by decide

/-- R362: a register of the ZipSystem may time out too. -/
theorem test_register_times_out :
    (troubled [⟨0xc0000004#32, 0, .clocks 1001⟩]).busRead 0xc0000004#32 =
      (none, { sv with per := { sv.per with wbu := 0xc0000004#32 } }) := by decide

theorem witness_StorePostsOneWord :
    (condHolds .always (own sv).flags = true ∧ sv.posted = none)
    ∧ (({ sv with posted := some (0xbfffffff#32, 1#32) } : State).posted = some (0xbfffffff#32, 1#32)
      ∧ ({ sv with posted := some (0xbfffffff#32, 1#32) } : State).ramReady 0xbfffffff#32)
    ∧ (({ sv with posted := some (registerAddress 4, 1#32) } : State).posted = some (registerAddress 4, 1#32)
      ∧ HasRegister sv.cfg 4 ∧ sv.calm (registerAddress 4))
    ∧ ({ mapped with posted := some (2#32, 1#32) } : State).answersAs 2#32 .device
    ∧ ({ mapped with posted := some (0#32, 1#32) } : State).answersAs 0#32 (.rom false) :=
  ⟨by decide, ⟨by decide, ramReady_last⟩, ⟨by decide, by unfold HasRegister; decide, calm_of_nil _ rfl⟩,
    ⟨by decide, by decide, calm_of_nil _ rfl⟩, by decide, by decide, calm_of_nil _ rfl⟩

theorem witness_MemoryInstructionsWaitForTheStore :
    condHolds .always (own sv).flags = true
    ∧ ({ sv with posted := some (registerAddress 4, 1#32) } : State).drainPosted =
      (true, ({ sv with posted := some (registerAddress 4, 1#32) } : State).drainPosted.2)
    ∧ ({ sv with posted := some (0#32, 1#32) } : State).posted = some (0#32, 1#32)
    ∧ ({ sv with posted := some (0#32, 1#32) } : State).ramReady 0#32 :=
  ⟨by decide, by decide, by decide, ramReady_first⟩

theorem witness_LoadSeesTheEarlierStore :
    sv.posted = none ∧ sv.ramReady (operandB sv (.reg (.gpr 3) 0#14))
    ∧ operandB (passed sv) (.imm 0#18) = operandB sv (.reg (.gpr 3) 0#14) :=
  ⟨by decide, ramReady_first, by decide⟩

theorem witness_StoreBusErrorArrivesLate :
    (({ empty with posted := some (3#32, 1#32) } : State).posted = some (3#32, 1#32)
      ∧ empty.cfg.periphBase = 0xc0000000#32 ∧ BusFails ({ empty with posted := none } : State) 3#32)
    ∧ (({ mapped with posted := some (1#32, 1#32) } : State).posted = some (1#32, 1#32) ∧ inPeriphSpace 1#32 = false
      ∧ kindAt mapped.cfg 1#32 = some (.rom true))
    ∧ (({ empty with posted := some (3#32, 1#32) } : State).drainPosted = (false, empty) ∧ empty.halted = false
      ∧ empty.cur.drain = true ∧ condHolds .always (own empty).flags = true)
    ∧ ({ empty with cur := { Env.quiet with drain := false } } : State).cur.drain = false ∧ held.halted = true
    ∧ ({ sv with storeErr := true } : State).halted = false ∧ sv.posted = none :=
  ⟨⟨by decide, by decide, .inr (.inr (.inl (by decide)))⟩, by decide, by decide, by decide⟩

/-- R213, R76: a store to an address of the peripheral space without a register is posted, and a LOD that waits for it takes its
bus error. -/
theorem test_waiting_lod_takes_the_stores_error :
    let t := ran (encode (.lod (.gpr 1) .always (.imm 0#18))) { us with posted := some (0xc0000014#32, 1#32) }
    (t.gie, t.usr.busErr, t.usr.pc, t.posted) = (false, true, 0x100#32, none) := by decide

/-- STO R1,(R2) and then LOD (R2),R3 in one word, R2 = 0. -/
theorem witness_VliwRunsBothHalves :
    sv.cfg.optVliw = true ∧ sv.posted = none ∧ AdmittedFirst (.std .sto (.gpr 1) (.reg (.gpr 2)))
    ∧ wholeOf (.std .sto (.gpr 1) (.reg (.gpr 2))) (widen .always) =
      some (exec (.sto (.gpr 1) .always (.reg (.gpr 2) 0#14)))
    ∧ wholeOf (.std .lod (.gpr 3) (.reg (.gpr 2))) .always = some (exec (.lod (.gpr 3) .always (.reg (.gpr 2) 0#14)))
    ∧ Runs sv (.std .sto (.gpr 1) (.reg (.gpr 2)))
    ∧ ∀ t, exec (.sto (.gpr 1) .always (.reg (.gpr 2) 0#14)) sv = .next t →
        Runs (moved t (own sv).pc) (.std .lod (.gpr 3) (.reg (.gpr 2))) := by
  refine ⟨by decide, by decide, trivial, rfl, rfl, ramReady_first, ?_⟩
  intro t ht
  cases ht
  exact ⟨by decide, by decide, calm_of_nil _ rfl⟩

theorem witness_VliwDivideByZero :
    (sv.cfg.optVliw = true ∧ sv.cfg.implementDivide = true ∧ sv.posted = none
      ∧ cond2Holds .nz (own sv).flags = true)
    ∧ (Built sv (.mov .pc (.reg .cc)) ∧ (wholeOf (.mov .pc (.reg .cc)) .always).isSome = true
      ∧ halfOperand sv (.imm 0#4) = 0#32 ∧ sv.busRead (halfOperand sv (.imm 15#4)) = (none, sv))
    ∧ (AdmittedFirst (.ldi (.gpr 0) false 1#5) ∧ Runs sv (.ldi (.gpr 0) false 1#5)
      ∧ ∃ i t, wholeOf (.ldi (.gpr 0) false 1#5) (widen .nz) = some i ∧ i sv = .next t
        ∧ (cond2Holds .nz (own t).flags = true ∧ halfOperand (moved t (own sv).pc) (.reg (.gpr 13)) = 0#32
          ∧ (handed t true (.std .lod .pc (.imm 15#4))).busRead (halfOperand (moved t (own sv).pc) (.imm 15#4)) =
            (none, handed t true (.std .lod .pc (.imm 15#4)))))
    ∧ ({ passed sv with posted := some (halfOperand sv (.imm 15#4), regValue sv (.gpr 3)) } : State).drainPosted =
      (false, passed sv) :=
  ⟨by decide, ⟨trivial, by decide, by decide, by decide⟩, ⟨rfl, trivial, _, _, rfl, rfl, by decide⟩, by decide⟩

/-- R75: LOD (R2),R0 | LOD (R2),R1 with a master writing 9 to the address between the two. -/
theorem test_vliw_loads_are_two_transactions :
    let s := { sv with mem := [(0, 7#32)], cur := { Env.quiet with midMasters := [(0#32, 9#32)] } }
    let i : Instr := .vliw false .always (.std .lod (.gpr 0) (.reg (.gpr 2))) (.std .lod (.gpr 1) (.reg (.gpr 2)))
    ((nextOf (exec i s)).map fun t => (t.sup.r[0], t.sup.r[1])) = some (7#32, 9#32)
    ∧ ((nextOf (exec i { s with lockLeft := 1 })).map fun t => (t.sup.r[0], t.sup.r[1])) = some (7#32, 7#32) := by decide

theorem witness_VliwIllegalAndRefused :
    ¬Built sv (.unbuilt 0#3 (.gpr 0) 0#5) ∧ ¬Built sv (.group false 3#3 0#5)
    ∧ sv.cfg.optVliw = true ∧ Built sv (.group true 2#3 0#5) ∧ Built sv (.ldi (.gpr 5) true 0#5)
    ∧ ¬AdmittedFirst (.std .add .pc (.imm 1#4)) :=
  ⟨id, by simp [Built], by decide, by simp [Built], trivial, by simp [AdmittedFirst, Reg.isGpr]⟩

theorem witness_UserWriteOfCc : us.gie = true := by decide
theorem witness_SupervisorWriteOfScc : sv.gie = false ∧ (0x20#32).getLsbD 5 = true ∧ sv.halted = false := by decide
theorem witness_SupervisorMoveToUcc : sv.gie = false := by decide

/-- User mode with an enabled line tripped. -/
def pending : State :=
  { us with per := { us.per with pic := ⟨true, 0x10#15, 0x10#15⟩ } }

theorem witness_InterruptSwitchesMode :
    Undisturbed pending
    ∧ ((ready pending).halted = false ∧ (ready pending).gie = true ∧ (ready pending).irq = true
      ∧ (ready pending).irqSeen = true ∧ (ready pending).storeErr = false ∧ (ready pending).lockLeft = 0
      ∧ (ready pending).posted = none)
    ∧ pending.cfg.container = .zipSystem ∧ bones.cfg.container = .zipBones ∧ sv.gie = false :=
  ⟨⟨by decide, by decide⟩, by decide, by decide, by decide, by decide⟩

/-- The supervisor about to return to user mode by LDI 0x20,CC with an enabled line tripped, under an environment that would not
see the input. -/
def returning : State :=
  { sv.withFetchWord 32 0x75800020 with
    per := pending.per, env := [{ Env.quiet with seeIrq := false }, { Env.quiet with seeIrq := false }] }

theorem witness_InterruptSwitchesMode_return :
    Undisturbed returning ∧ ((ready returning).gie = false ∧ (ready returning).irq = true)
    ∧ ∃ u, step returning = .next u ∧ Undisturbed u ∧ ((ready u).halted = false ∧ (ready u).storeErr = false
      ∧ (ready u).gie = true ∧ (ready u).irq = true ∧ (ready u).lockLeft = 0 ∧ (ready u).posted = none) :=
  ⟨⟨by decide, by decide⟩, by decide, (nextOf (step returning)).getD sv, eq_next (by decide), ⟨by decide, by decide⟩, by decide⟩

/-- User mode asleep. -/
def asleep : State := { us with sleep := true }

theorem witness_WaitingAndHaltedExecuteNothing :
    (Undisturbed asleep
      ∧ ((ready asleep).halted = false ∧ (ready asleep).storeErr = false ∧ (ready asleep).gie = true
        ∧ (ready asleep).sleep = true
        ∧ (ready asleep).takesInterrupt = false ∧ (ready asleep).posted = none))
    ∧ Undisturbed held ∧ (held.halted = true ∧ held.posted = none ∧ held.per.wdt.value = 0#31) :=
  ⟨⟨⟨by decide, by decide⟩, by decide⟩, ⟨by decide, by decide⟩, by decide⟩

/-- User mode with STEP, a NOOP at hand. -/
def stepping : State := ({ us with stepBit := true } : State).withFetchWord 32 0x7e000000

theorem witness_StepBitSwitchesBack :
    Undisturbed stepping ∧ Executing (ready stepping) ∧ (ready stepping).gie = true
    ∧ (ready stepping).fetch = (some 0x7e000000#32, (ready stepping).fetch.2)
    ∧ ∃ u, exec (decode 0x7e000000#32) (issued (ready stepping).fetch.2 0x7e000000#32) = .next u
      ∧ (u.gie = true ∧ u.stepBit = true ∧ u.halted = false ∧ u.posted = none) :=
  ⟨⟨by decide, by decide⟩, ⟨by decide, by decide, by decide, by decide⟩, by decide,
    by decide, ran 0x7e000000#32 (issued (ready stepping).fetch.2 0x7e000000#32), eq_next (by decide), by decide⟩

theorem witness_UserModeIsConfined :
    us.gie = true ∧ exec (.mov .pc .always true (.gpr 0) true 0#13) us =
      .next (ran (encode (.mov .pc .always true (.gpr 0) true 0#13)) us) :=
  ⟨by decide, eq_next (by decide)⟩

theorem witness_OnlyVliwIsRefused :
    exec (.vliw false .always (.ldi (.gpr 0) true 0#5) (.group true 0#3 0#5)) sv = .refused .vliwLdiSixthBit :=
  rfl

theorem witness_OtherAgentsLeaveTheCpu : sv.per.wdt.value = 0#31 := by decide

/-- `i_rst` at the next step. -/
def resetting : State := { us with env := [{ Env.quiet with reset := true }] }

/-- The watchdog about to expire. -/
def expiring : State := { us with per := { us.per with wdt := ⟨1#31, false, 1#31⟩ } }

/-- V18, R400: the debug RESET bit resets inside a locked sequence. -/
theorem test_debug_reset_in_lock :
    let s := { sv with lockLeft := 2, env := [{ Env.quiet with host := some (.writeCtrl 0x440#32) }] }
    ((nextOf (step s)).map fun t => (t.halted, t.lockLeft, t.sup.pc)) = some (true, 0, 0x100#32) := by decide

theorem witness_WarmReset :
    resetting.loadEnv.cur.reset = true
    ∧ ((0x440#32).getLsbD 6 = true ∧ (0x440#32).getLsbD 8 = false ∧ (0x440#32).getLsbD 11 = false)
    ∧ expiring.cfg.container = .zipSystem ∧ expiring.per.wdt.value = 1#31 := by decide

theorem witness_StepKeepsTheInvariant :
    placed.Inv ∧ ∃ t, step placed = .next t ∧ t.sup.pc = 0x101#32 := by
  refine ⟨⟨by decide, by decide, by decide, by decide, by decide, by decide,
    by decide, by decide, by decide, by decide, by decide, by decide, by decide⟩, ?_⟩
  exact ⟨(match step placed with
    | .next t => t
    | .fault _ => placed
    | .refused _ => placed), eq_next (by decide), by decide⟩

theorem witness_PeripheralMap :
    (sv.cfg.periphBase = 0xc0000000#32 ∧ sv.cfg.container = .zipSystem ∧ sv.cfg.includeCounters = true
      ∧ sv.cfg.includeDma = true ∧ sv.cur.fates = [])
    ∧ bones.cfg.container = .zipBones ∧ 0xc0000000 ≤ (0xc0000000#32).toNat ∧ 0xc0000014 ≤ (0xc0000014#32).toNat
    ∧ (0xc0000008 ≤ (0xc0000008#32).toNat ∧ (0xc000000f#32).toNat < 0xc0000010
      ∧ ({ Config.standard with includeCounters := false } : Config).includeCounters = false)
    ∧ 0xc0000010 ≤ (0xc0000010#32).toNat ∧ ({ Config.standard with includeDma := false } : Config).includeDma = false := by
  decide

theorem witness_InterruptController :
    (14 : Nat) < 15 ∧ (0x4000#15).getLsbD 14 = true ∧ (Jiffies.tick ⟨0#32, 1#32, true⟩).2 = true
    ∧ (Timer.tick ⟨1#31, true, 5#31⟩).2 = true ∧ (Pic.any ⟨true, 1#15, 1#15⟩) = true ∧ (0x100#24).getLsbD 8 = true := by
  decide

theorem witness_TimerCountsDown :
    0 < ((0x80000001#32).extractLsb' 0 31).toNat ∧ 0x7ffffffe < ((0xffffffff#32).extractLsb' 0 31).toNat
    ∧ (0xffffffff#32).extractLsb' 0 31 ≠ 0#31 ∧ Timer.stopped.value = 0#31 := by decide

theorem witness_JiffiesKeepTheNearestTime :
    (Jiffies.tick ⟨0xffffffff#32, 0#32, true⟩).2 = true ∧ (Jiffies.write ⟨5#32, 0#32, false⟩ 5#32).2 = true
    ∧ 0 < (6#32 - 5#32).toInt := by decide

theorem witness_CountersCount :
    (sv.cfg.container = .zipSystem ∧ sv.cfg.includeCounters = true ∧ sv.per.wdt.value = 0#31)
    ∧ us.cfg.container = .zipSystem ∧ us.cfg.includeCounters = true := by decide

theorem witness_DmaNeedsItsKey :
    (({ Dma.idle with len := 1#32 } : Dma).active = false ∧ (0x0fed0000#32).extractLsb' 16 12 = 0xfed#12
      ∧ ({ Dma.idle with len := 1#32 } : Dma).len ≠ 0#32)
    ∧ (0x0fec0000#32).extractLsb' 16 12 ≠ 0xfed#12 ∧ ({ Dma.idle with active := true } : Dma).active = true := by
  decide

/-- A transfer of two words from 0 to 1 is under way; the areas overlap. -/
def copying : State :=
  { sv with per := { sv.per with dma := { Dma.idle with active := true, remaining := 2#32, curDst := 1#32 } } }

theorem witness_DmaCopiesTheBlock :
    (copying.cfg.container = .zipSystem ∧ copying.lockLeft = 0 ∧ copying.posted = none ∧ copying.per.dma.active = true
      ∧ copying.per.dma.buffer = [] ∧ copying.per.dma.trigger = false ∧ copying.per.dma.noIncSrc = false
      ∧ copying.per.dma.noIncDst = false ∧ 0 < copying.per.dma.remaining.toNat
      ∧ copying.per.dma.remaining.toNat ≤ (if copying.per.dma.chunk = 0#10 then 1024 else copying.per.dma.chunk.toNat))
    ∧ ∀ i, i < copying.per.dma.remaining.toNat → copying.ramReady (copying.per.dma.curSrc + BitVec.ofNat 32 i)
      ∧ copying.ramReady (copying.per.dma.curDst + BitVec.ofNat 32 i) := by
  refine ⟨by decide, ?_⟩
  unfold State.ramReady State.answersAs State.calm
  decide

/-- Held with a NOOP at hand, the host commanding one step (0xd00: clear cache, halt, step). -/
def commanded : State :=
  { sv.withFetchWord 32 0x7e000000 with halted := true, env := [{ Env.quiet with host := some (.writeCtrl 0xd00#32) }] }

/-- Where the commanded step begins. -/
def commandedReady : State := (commanded.loadEnv.writeCtrl 0xd00#32).1.agents.look

theorem witness_DebugPortControls :
    (held.halted = true ∧ sv.halted = false)
    ∧ ((0x40f#32).getLsbD 6 = false ∧ (0x40f#32).getLsbD 8 = false ∧ (0x40f#32).getLsbD 10 = true
      ∧ (31#32).getLsbD 6 = false ∧ (31#32).getLsbD 8 = false ∧ (31#32).getLsbD 10 = false ∧ (31#32).getLsbD 11 = false)
    ∧ commanded.loadEnv.cur.reset = false ∧ commanded.halted = true
    ∧ commanded.loadEnv.cur.host = some (.writeCtrl 0xd00#32)
    ∧ ((0xd00#32).getLsbD 6 = false ∧ (0xd00#32).getLsbD 8 = true) ∧ Executing commandedReady
    ∧ commandedReady.fetch = (some 0x7e000000#32, commandedReady.fetch.2) ∧ commandedReady.fetch.2.posted = none
    ∧ ∃ u, exec (decode 0x7e000000#32) (issued commandedReady.fetch.2 0x7e000000#32) = .next u ∧ u.halted = false :=
  ⟨by decide, by decide, by decide, by decide, by decide, by decide, ⟨by decide, by decide, by decide, by decide⟩, by decide,
    by decide, ran 0x7e000000#32 (issued commandedReady.fetch.2 0x7e000000#32), eq_next (by decide), by decide⟩

/-- R372: one instruction, and held again. -/
theorem test_debug_step :
    (nextOf (step commanded)).map (fun t => (t.halted, t.sup.pc)) = some (true, 0x101#32) := by decide

theorem witness_DebugPortReachesTheRegisters :
    (({ sv with dbgAddr := 13#6 } : State).dbgAddr = BitVec.ofNat 6 (13 : Fin 14).val
      ∧ ({ sv with dbgAddr := 16#6 } : State).dbgAddr = BitVec.ofNat 6 (16 + (0 : Fin 14).val)
      ∧ ({ sv with dbgAddr := 31#6 } : State).dbgAddr = 31#6 ∧ ({ sv with dbgAddr := 51#6 } : State).dbgAddr = BitVec.ofNat 6 51
      ∧ sv.cfg.periphBase = 0xc0000000#32)
    ∧ (HasRegister sv.cfg 0 ∧ HasRegister sv.cfg 19 ∧ ¬HasRegister sv.cfg 20 ∧ ¬HasRegister bones.cfg 0)
    ∧ step { sv with env := [{ Env.quiet with host := some (.writeData 0#32) }] } = .fault .debugWriteWhileRunning :=
  ⟨by decide, ⟨by unfold HasRegister; decide, by unfold HasRegister; decide, by unfold HasRegister; decide,
    by unfold HasRegister; decide⟩, rfl⟩

end Sys2Proof.Tests
end

section
/-! ## What an instruction keeps

An instruction changes the machine only through the shared operations: registers written, bus transactions, a store posted, free
bits drawn, CC written, an exception taken. `Upkeep P Q` says that these operations keep `P` while the instruction runs, and leave
`Q` where one of them changes the mode or halts; `Upkeep.exec` then says that every instruction takes `P` to `Q`. -/

namespace Sys2Proof.Machine

open Sys2Proof

/-- The shared operations keep `P`, and those that may change the mode or halt take `P` to `Q`. -/
structure Upkeep (P Q : State → Prop) : Prop where
  weaken : ∀ {s}, P s → Q s
  /-- Registers, PC and flags of a set that the running mode reaches. -/
  registers : ∀ {s} (user : Bool) (r : Vector Word 14) (pc : Word) (f : Flags), P s → (s.gie = true → user = true) →
    P (s.withSet user { s.set user with r := r, pc := pc, flags := f })
  ownCC : ∀ {s} (v : Word), P s → Q (s.writeReg .cc v)
  userCC : ∀ {s} (v : Word), P s → s.gie = false → Q (s.supWriteUCC v).haltIfAsleep
  exception : ∀ {s} {c : Cause} (saved : Word) (phase : Bool), P s → c ≠ .break_ → Q (s.takeException c saved phase)
  read : ∀ {s} (a : Word), P s → P (s.busRead a).2
  landed : ∀ {s}, P s → P s.drainPosted.2
  granted : ∀ {s}, P s → P s.grantBus
  posting : ∀ {s} (p : Option (Word × Word)), P s → P { s with posted := p }
  drawing : ∀ {s} (d : Nat), P s → P { s with draws := d }
  locking : ∀ {s}, P s → P { s with lockLeft := 3 }

/-- A body that raised an exception leaves `Q`; one that completed leaves `Q`, and `P` where `runs` holds. -/
def Ran.Upholds (P Q : State → Prop) (runs : Prop) : Ran → Prop
  | .done s => Q s ∧ (runs → P s)
  | .raised s => Q s

theorem Ran.Upholds.state {P Q : State → Prop} {runs : Prop} {r : Ran} (h : r.Upholds P Q runs) : Q r.state := by
  cases r with
  | done s => exact h.1
  | raised s => exact h

theorem Ran.Upholds.imp {P Q : State → Prop} {runs runs' : Prop} {r : Ran} (h : r.Upholds P Q runs) (hr : runs' → runs) :
    r.Upholds P Q runs' := by
  cases r with
  | done s => exact ⟨h.1, fun hp => h.2 (hr hp)⟩
  | raised s => exact h

/-- A word that R232 does not refuse has no first half that writes PC or CC. -/
theorem vliwRefusal_first {f g : Half} (h : vliwRefusal f g = none) : halfWritesPcOrCc f = false := by
  unfold vliwRefusal at h
  split at h
  · cases h
  · split at h
    · cases h
    · rename_i hw
      exact Bool.eq_false_of_not_eq_true hw

/-- The standard operations that a first half may run with PC or CC in the field DR are those that do not write it (R232). -/
theorem halfWritesPcOrCc_std {op : StdOp} {dr : Reg} {b : HalfB} (h : halfWritesPcOrCc (.std op dr b) = false) :
    dr.isGpr = true ∨ op = .cmp ∨ op = .tst ∨ op = .sto := by
  cases op <;> simp_all [halfWritesPcOrCc]

section
variable {P Q : State → Prop} (k : Upkeep P Q) {s : State}
include k

theorem Upkeep.done (h : P s) (runs : Prop) : (Ran.done s).Upholds P Q runs := ⟨k.weaken h, fun _ => h⟩

/-! ### Write-back -/

theorem Upkeep.advance (h : P s) : P s.advance :=
  k.registers s.gie s.active.r (s.active.pc + 1#32) s.active.flags h id

theorem Upkeep.setFlags (f : Flags) (h : P s) : P (s.setFlags f) :=
  k.registers s.gie s.active.r s.active.pc f h id

theorem Upkeep.writeGpr {user : Bool} (n : Fin 14) (v : Word) (h : P s) (hu : s.gie = true → user = true) :
    P (s.writeGpr user n v) :=
  k.registers user ((s.set user).r.set n v) (s.set user).pc (s.set user).flags h hu

theorem Upkeep.writePc {user : Bool} (v : Word) (h : P s) (hu : s.gie = true → user = true) : P (s.writePc user v) :=
  k.registers user (s.set user).r v (s.set user).flags h hu

theorem Upkeep.writeReg (dr : Reg) (v : Word) (h : P s) : (Ran.done (s.writeReg dr v)).Upholds P Q (dr.isGpr = true) := by
  cases dr with
  | gpr n => exact k.done (k.writeGpr n v h id) _
  | pc => exact k.done (k.writePc v h id) _
  | cc => exact ⟨k.ownCC v h, nofun⟩

theorem Upkeep.writeIn (user : Bool) (dr : Reg) (v : Word) (h : P s) (hu : s.gie = true → user = true) :
    Q (s.writeIn user dr v) := by
  unfold State.writeIn
  split
  · exact (k.writeReg dr v h).1
  · rename_i hne
    have hg : s.gie = false := by
      cases hg : s.gie with
      | false => rfl
      | true => exact absurd ((hu hg).trans hg.symm) hne
    cases dr with
    | gpr n => exact k.weaken (k.writeGpr n v h hu)
    | pc => exact k.weaken (k.writePc v h hu)
    | cc => exact k.userCC v h hg

theorem Upkeep.finish (conditional : Bool) (dr : Reg) (r : AluResult) (h : P s) :
    (Ran.done (s.finish conditional dr r)).Upholds P Q (dr.isGpr = true) := by
  unfold State.finish
  split
  · rename_i hc
    have hd : dr.isGpr = true := by simp_all
    exact k.done (k.setFlags r.flags ((k.writeReg dr r.res h).2 hd)) _
  · exact k.writeReg dr r.res h

/-! ### Loads, stores and divides -/

theorem Upkeep.waitForStore (ctx : Ctx) (h : P s) : (s.waitForStore ctx).Upholds P Q True := by
  have hl := k.landed h
  unfold State.waitForStore
  generalize s.drainPosted = d at hl
  obtain ⟨_ | _, t⟩ := d
  · exact k.exception _ _ hl (by decide)
  · exact k.done hl _

theorem Upkeep.loadInto (ctx : Ctx) (dr : Reg) (a : Word) (h : P s) :
    (s.loadInto ctx dr a).Upholds P Q (dr.isGpr = true) := by
  have hr := k.read a h
  unfold State.loadInto
  generalize s.busRead a = d at hr
  obtain ⟨_ | v, t⟩ := d
  · exact k.exception _ _ hr (by decide)
  · exact k.writeReg dr v hr

theorem Upkeep.lod (dr : Reg) (a : Word) (ctx : Ctx) (h : P s) : (bodyLod dr a ctx s).Upholds P Q (dr.isGpr = true) := by
  have hw := k.waitForStore ctx h
  unfold bodyLod
  generalize s.waitForStore ctx = w at hw
  cases w with
  | done t => exact k.loadInto ctx dr a (hw.2 trivial)
  | raised t => exact hw

theorem Upkeep.sto (dr : Reg) (a : Word) (ctx : Ctx) (h : P s) (runs : Prop) : (bodySto dr a ctx s).Upholds P Q runs := by
  have hw := k.waitForStore ctx h
  unfold bodySto
  generalize s.waitForStore ctx = w at hw
  cases w with
  | done t => exact k.done (k.posting _ (hw.2 trivial)) _
  | raised t => exact hw

theorem Upkeep.divide (dr : Reg) (b q : Word) (ctx : Ctx) (h : P s) :
    (if b = 0#32 then Ran.raised (s.divideByZero ctx) else .done (s.finishDivide ctx dr q)).Upholds P Q (dr.isGpr = true) := by
  split
  · exact k.exception _ _ h (by decide)
  · exact k.finish _ dr _ (k.drawing _ h)

/-! ### Bodies -/

theorem Upkeep.std (op : StdOp) (dr : Reg) (b : Word) (ctx : Ctx) (h : P s) :
    (bodyStd op dr b ctx s).Upholds P Q (dr.isGpr = true) := by
  cases op with
  | cmp => exact k.done (k.setFlags _ h) _
  | tst => exact k.done (k.setFlags _ h) _
  | lod => exact k.lod dr b ctx h
  | sto => exact k.sto dr b ctx h _
  | divu => exact k.divide dr b _ ctx h
  | divs => exact k.divide dr b _ ctx h
  | ldilo => exact k.writeReg dr _ h
  | brev => exact k.writeReg dr _ h
  | sub => exact k.finish _ dr _ h
  | and => exact k.finish _ dr _ h
  | add => exact k.finish _ dr _ h
  | or => exact k.finish _ dr _ h
  | xor => exact k.finish _ dr _ h
  | lsr => exact k.finish _ dr _ h
  | lsl => exact k.finish _ dr _ h
  | asr => exact k.finish _ dr _ h
  | mpy => exact k.finish _ dr _ h
  | mpyuhi => exact k.finish _ dr _ h
  | mpyshi => exact k.finish _ dr _ h
  | popc => exact k.finish _ dr _ h
  | rol => exact k.finish _ dr _ h

/-- A half that R232 admits as the first of a word leaves `P` where it completes. -/
theorem Upkeep.half (f : Half) (ctx : Ctx) (h : P s) : (bodyHalf f ctx s).Upholds P Q (halfWritesPcOrCc f = false) := by
  cases f with
  | std op dr b =>
    by_cases hop : op = .cmp ∨ op = .tst ∨ op = .sto
    · rcases hop with rfl | rfl | rfl
      · exact k.done (k.setFlags _ h) _
      · exact k.done (k.setFlags _ h) _
      · exact k.sto dr _ ctx h _
    · exact (k.std op dr _ ctx h).imp fun hw => (halfWritesPcOrCc_std hw).resolve_right hop
  | mov dr b => exact (k.writeReg dr _ h).imp fun hw => by simpa [halfWritesPcOrCc] using hw
  | ldi dr low imm => exact (k.writeReg dr _ h).imp fun hw => by simpa [halfWritesPcOrCc] using hw
  | group bit sel rsvd => exact k.done h _
  | unbuilt sel dr b => exact k.done h _

/-! ### Words -/

theorem Upkeep.runWord (legal : Bool) (cnd : Cond) {body : Ctx → State → Ran} (h : P s)
    (hb : ∀ ctx t, P t → Q (body ctx t).state) : Q (s.runWord legal cnd body) := by
  rcases s.runWord_cases legal cnd body with ⟨_, hr⟩ | ⟨_, _, hr⟩ | ⟨_, _, hr⟩
  · rw [hr]
    exact k.exception _ _ h (by decide)
  · rw [hr]
    exact k.weaken (k.advance h)
  · rw [hr]
    exact hb _ _ (k.advance h)

theorem Upkeep.undefinedHere (h : P s) : Q s.undefinedHere := k.exception _ _ h (by decide)

theorem Upkeep.vliwStart (ctx : Ctx) (f g : Half) (h : P s) : (s.vliwStart ctx f g).Upholds P Q True := by
  unfold State.vliwStart
  split
  · exact k.waitForStore ctx h
  · exact k.done h _

theorem Upkeep.vliwFirst (a : Word) (cnd : Cond2) (f : Half) (h : P s) :
    (s.vliwFirst a cnd f).Upholds P Q (halfWritesPcOrCc f = false) := by
  unfold State.vliwFirst
  split
  · exact k.half f _ h
  · exact k.done h _

theorem Upkeep.betweenHalves (ctx : Ctx) (g : Half) (h : P s) : (s.betweenHalves ctx g).Upholds P Q True := by
  rcases s.betweenHalves_cases ctx g with ⟨_, hr⟩ | ⟨_, _, hr⟩ | ⟨_, _, hr⟩
  · rw [hr]
    exact k.done h _
  · rw [hr]
    exact k.done (k.granted (k.landed h)) _
  · rw [hr]
    exact k.exception _ _ (k.landed h) (by decide)

theorem Upkeep.vliwSecond (a : Word) (c2 : Bool) (cnd : Cond2) (g : Half) (h : P s) :
    Q (s.vliwSecond a c2 cnd g).state := by
  unfold State.vliwSecond
  split
  · have hm := k.betweenHalves ⟨a, .second, c2 && decide (cnd ≠ .always)⟩ g h
    dsimp only
    generalize s.betweenHalves _ g = m at hm
    cases m with
    | done t => exact (k.half g _ (hm.2 trivial)).state
    | raised t => exact hm
  · exact k.weaken h

theorem Upkeep.runVliw (a : Word) (c2 : Bool) (cnd : Cond2) (f g : Half) (h : P s) (hf : halfWritesPcOrCc f = false) :
    Q (s.runVliw a c2 cnd f g) := by
  have hs := k.vliwStart ⟨a, .whole, false⟩ f g h
  unfold State.runVliw
  generalize s.vliwStart _ f g = w at hs
  cases w with
  | raised t => exact hs
  | done t =>
    have h1 := k.vliwFirst a cnd f (hs.2 trivial)
    dsimp only
    generalize t.vliwFirst a cnd f = u at h1
    cases u with
    | raised u => exact h1
    | done u => exact k.vliwSecond a c2 cnd g (h1.2 hf)

theorem Upkeep.execVliw {c2 : Bool} {cnd : Cond2} {f g : Half} {t : State} (h : P s)
    (he : execVliw c2 cnd f g s = .next t) : Q t := by
  unfold Machine.execVliw at he
  split at he
  · split at he
    · cases he
    · rename_i hr
      cases he
      exact k.runVliw _ c2 cnd f g (k.advance h) (vliwRefusal_first hr)
  · cases he
    exact k.exception _ _ h (by decide)

/-- Every instruction but BREAK takes `P` to `Q`. -/
theorem Upkeep.exec {i : Instr} {t : State} (h : P s) (hi : ∀ bit27 payload, i ≠ .brk bit27 payload)
    (he : exec i s = .next t) : Q t := by
  have standard : ∀ (op : StdOp) (legal : Bool) (dr : Reg) (cnd : Cond) (b : OpB),
      Q (s.runWord legal cnd fun ctx t => bodyStd op dr (t.opB b) ctx t) :=
    fun op legal dr cnd b => k.runWord legal cnd h fun ctx t ht => (k.std op dr (t.opB b) ctx ht).state
  cases i with
  | vliw c2 cnd f g => exact k.execVliw h he
  | brk bit27 payload => exact absurd rfl (hi bit27 payload)
  | ldi dr imm =>
    cases he
    exact k.runWord true .always h fun ctx t ht => (k.writeReg dr _ ht).1
  | noop bit27 payload =>
    cases he
    exact k.runWord true .always h fun ctx t ht => k.weaken ht
  | lock bit27 payload =>
    cases he
    exact k.runWord s.hasLock .always h fun ctx t ht => k.weaken (k.locking ht)
  | mov dr cnd a br b imm =>
    cases he
    exact k.runWord true cnd h fun ctx t ht => k.writeIn (t.movSet a) dr _ ht fun hg => by simp [State.movSet, hg]
  | sub dr cnd b => cases he; exact standard .sub true dr cnd b
  | and dr cnd b => cases he; exact standard .and true dr cnd b
  | add dr cnd b => cases he; exact standard .add true dr cnd b
  | or dr cnd b => cases he; exact standard .or true dr cnd b
  | xor dr cnd b => cases he; exact standard .xor true dr cnd b
  | lsr dr cnd b => cases he; exact standard .lsr true dr cnd b
  | lsl dr cnd b => cases he; exact standard .lsl true dr cnd b
  | asr dr cnd b => cases he; exact standard .asr true dr cnd b
  | mpy dr cnd b => cases he; exact standard .mpy s.hasMultiply dr cnd b
  | ldilo dr cnd b => cases he; exact standard .ldilo true dr cnd b
  | mpyuhi dr cnd b => cases he; exact standard .mpyuhi s.hasMultiply dr cnd b
  | mpyshi dr cnd b => cases he; exact standard .mpyshi s.hasMultiply dr cnd b
  | brev dr cnd b => cases he; exact standard .brev true dr cnd b
  | popc dr cnd b => cases he; exact standard .popc true dr cnd b
  | rol dr cnd b => cases he; exact standard .rol true dr cnd b
  | cmp dr cnd b => cases he; exact standard .cmp true dr cnd b
  | tst dr cnd b => cases he; exact standard .tst true dr cnd b
  | lod dr cnd b => cases he; exact standard .lod true dr cnd b
  | sto dr cnd b => cases he; exact standard .sto true dr cnd b
  | divu dr cnd b => cases he; exact standard .divu s.cfg.implementDivide dr cnd b
  | divs dr cnd b => cases he; exact standard .divs s.cfg.implementDivide dr cnd b
  | _ => cases he; exact k.undefinedHere h

end

end Sys2Proof.Machine
end

section
/-! ## User mode is confined (10_state.md R24, R48; 60_exceptions.md R301) -/

namespace Sys2Proof.Machine

open Sys2Proof

/-- What user mode may not touch is in `t` as in `s`; TRAP and UBREAK may differ only once the supervisor runs. -/
structure State.Confined (s t : State) : Prop where
  sup : t.sup = s.sup
  stepBit : t.stepBit = s.stepBit
  breakEn : t.breakEn = s.breakEn
  icache : t.icache = s.icache
  cfg : t.cfg = s.cfg
  env : t.env = s.env
  halted : t.halted = s.halted
  trap : t.gie = true → t.trap = s.trap
  ubreak : t.gie = true → t.ubreak = s.ubreak

/-- `t` is confined and still runs in user mode. -/
def State.UserRun (s t : State) : Prop := s.Confined t ∧ t.gie = true

variable {s t u : State}

theorem State.UserRun.refl (hg : s.gie = true) : s.UserRun s :=
  ⟨⟨rfl, rfl, rfl, rfl, rfl, rfl, rfl, fun _ => rfl, fun _ => rfl⟩, hg⟩

/-- The switch to supervisor mode is confined, whatever it does to the user set, TRAP and UBREAK. -/
theorem State.Confined.enterSupervisor (h : s.Confined t) (usr : RegSet) (trap ubreak : Bool) (saved : Word) (phase : Bool) :
    s.Confined (({ t with usr := usr, trap := trap, ubreak := ubreak } : State).enterSupervisor saved phase) :=
  ⟨h.sup, h.stepBit, h.breakEn, h.icache, h.cfg, h.env, h.halted, nofun, nofun⟩

theorem State.UserRun.masters (h : s.UserRun t) (hm : t.MastersOnly u) : s.UserRun u := by
  obtain ⟨m, p, d, l, rfl⟩ := hm
  obtain ⟨hc, hg⟩ := h
  exact ⟨{ hc with }, hg⟩

theorem State.UserRun.drainPosted (h : s.UserRun t) : s.UserRun t.drainPosted.2 := by
  obtain ⟨hc, hg⟩ := h
  rcases t.drainPosted_cases with ⟨_, hd⟩ | ⟨l, p, hd⟩ | ⟨l, a, w, _, hd⟩
  · rw [hd]
    exact ⟨hc, hg⟩
  · rw [hd]
    exact ⟨{ hc with }, hg⟩
  · rw [hd]
    exact ⟨{ hc with }, hg⟩

/-- A user-mode write of CC changes flags and SLEEP, or traps. -/
theorem State.UserRun.userWriteCC (h : s.UserRun t) (v : Word) : s.Confined (t.userWriteCC v) := by
  obtain ⟨hc, _⟩ := h
  unfold State.userWriteCC
  dsimp only
  split
  · exact { hc with }
  · exact hc.enterSupervisor _ true t.ubreak _ _

theorem State.UserRun.takeException (h : s.UserRun t) {c : Cause} (saved : Word) (phase : Bool) (hc : c ≠ .break_) :
    s.Confined (t.takeException c saved phase) := by
  rw [t.takeException_user saved phase h.2 hc]
  exact h.1.enterSupervisor _ t.trap t.ubreak saved phase

/-- The shared operations of an instruction that began in user mode. -/
theorem State.confined_upkeep (s : State) : Upkeep s.UserRun s.Confined where
  weaken h := h.1
  registers user r pc f h hu := by
    obtain ⟨hc, hg⟩ := h
    rw [hu hg]
    exact ⟨{ hc with }, hg⟩
  ownCC {t} v h := by
    rw [State.writeReg, if_pos h.2]
    exact h.userWriteCC v
  userCC v h hg := absurd h.2 (by simp [hg])
  exception saved phase h hc := h.takeException saved phase hc
  read {t} a h := h.masters (t.busRead_masters a)
  landed h := h.drainPosted
  granted {t} h := h.masters t.grantBus_frame
  posting p h := ⟨{ h.1 with }, h.2⟩
  drawing d h := ⟨{ h.1 with }, h.2⟩
  locking h := ⟨{ h.1 with }, h.2⟩

/-- BREAK in user mode: a halt where BREAK_EN is set, else the switch to the supervisor (45_noop_break_lock.md R196). -/
theorem State.takeException_break_user (s : State) (saved : Word) (phase : Bool) (hg : s.gie = true) :
    s.takeException .break_ saved phase =
      if s.breakEn then { s with usr := { s.usr with pc := saved, phase := phase }, halted := true, lockLeft := 0 }
      else ({ s with ubreak := true } : State).enterSupervisor saved phase := by
  simp [State.takeException, hg]

end Sys2Proof.Machine

namespace Sys2Proof.Proofs

open Sys2Proof Sys2Proof.Machine

/-- Settles O45: by the operations an instruction is made of, and BREAK apart, which may halt. -/
theorem userModeIsConfined : Obligations.UserModeIsConfined := by
  intro i s t hg he
  by_cases hi : ∃ bit27 payload, i = .brk bit27 payload
  · obtain ⟨bit27, payload, rfl⟩ := hi
    cases he
    rw [s.takeException_break_user _ _ hg]
    split
    · rename_i hb
      exact ⟨rfl, rfl, rfl, rfl, rfl, rfl, .inr ⟨hb, bit27, payload, rfl⟩, fun _ => ⟨rfl, rfl⟩⟩
    · exact ⟨rfl, rfl, rfl, rfl, rfl, rfl, .inl rfl, nofun⟩
  · have hc := s.confined_upkeep.exec (.refl hg) (fun bit27 payload hb => hi ⟨bit27, payload, hb⟩) he
    exact ⟨hc.sup, hc.stepBit, hc.breakEn, hc.icache, hc.cfg, hc.env, .inl hc.halted,
      fun hg => ⟨hc.trap hg, hc.ubreak hg⟩⟩

end Sys2Proof.Proofs
end

section
/-! ## The invariant in parts

`State.Inv` holds between steps. Within a step two of its clauses can fail for a while: a CPU that the debug port has just
released may still be asleep in supervisor mode or have a store's error to take, and a CPU that an instruction has just halted may
still have its store in flight. `State.Steady` is what never fails, `State.Sound` what holds from the CPU's part of a step on. -/

namespace Sys2Proof.Machine

open Sys2Proof

/-- What the invariant says of the peripherals. -/
structure Periph.Sound (p : Periph) : Prop where
  watchdog_oneshot : p.wdt.reload = false
  dma_idle_empty : p.dma.active = false → p.dma.buffer = []

/-- What the invariant says of an instruction cache in a build. -/
structure CacheSound (cfg : Config) (m : Memory) : Prop where
  wf : Memory.wf m = true
  room : m.length ≤ 2 ^ cfg.lgicache
  absent : cfg.pipelined = false → m = []

/-- What the invariant says of the other end of the bus. -/
structure State.BusSound (s : State) : Prop where
  mem_wf : Memory.wf s.mem = true
  per : s.per.Sound

/-- The clauses of the invariant that hold at every moment of a step. -/
structure State.Steady (s : State) : Prop where
  mem_wf : Memory.wf s.mem = true
  per : s.per.Sound
  cache : CacheSound s.cfg s.icache
  lock_range : s.lockLeft ≤ 3
  halted_unlocked : s.halted = true → s.lockLeft = 0
  fp_never : s.sup.fpErr = false ∧ s.usr.fpErr = false
  user_no_cause : s.gie = true → s.usr.ill = false ∧ s.usr.busErr = false ∧ s.usr.divErr = false ∧ s.usr.phase = false
    ∧ s.trap = false ∧ s.ubreak = false

/-- The clauses that hold while the CPU acts: all but that of the store in flight. -/
structure State.Sound (s : State) : Prop extends s.Steady where
  error_held : s.storeErr = true → s.halted = true
  asleep_halted : s.gie = false → s.sleep = true → s.halted = true

variable {s t : State}

theorem State.Inv.sound (h : s.Inv) : s.Sound where
  mem_wf := h.mem_wf
  per := ⟨h.watchdog_oneshot, h.dma_idle_empty⟩
  cache := ⟨h.icache_wf, h.icache_room, h.icache_absent⟩
  lock_range := h.lock_range
  halted_unlocked := h.halted_unlocked
  fp_never := h.fp_never
  user_no_cause := h.user_no_cause
  error_held := h.error_held
  asleep_halted := h.asleep_halted

theorem State.Sound.inv (h : s.Sound) (hp : s.halted = true → s.posted = none) : s.Inv where
  mem_wf := h.mem_wf
  icache_wf := h.cache.wf
  icache_room := h.cache.room
  icache_absent := h.cache.absent
  lock_range := h.lock_range
  fp_never := h.fp_never
  halted_settled := hp
  halted_unlocked := h.halted_unlocked
  error_held := h.error_held
  asleep_halted := h.asleep_halted
  user_no_cause := h.user_no_cause
  watchdog_oneshot := h.per.watchdog_oneshot
  dma_idle_empty := h.per.dma_idle_empty

theorem State.Steady.bus (h : s.Steady) : s.BusSound := ⟨h.mem_wf, h.per⟩

/-- Of a halted CPU nothing more is asked. -/
theorem State.Steady.sound_of_halted (h : s.Steady) (hh : s.halted = true) : s.Sound :=
  { h with error_held := fun _ => hh, asleep_halted := fun _ _ => hh }

/-! ### The cache -/

theorem CacheSound.empty (cfg : Config) : CacheSound cfg [] := ⟨rfl, Nat.zero_le _, fun _ => rfl⟩

theorem CacheSound.drop {cfg : Config} {m : Memory} (h : CacheSound cfg m) (a : Nat) :
    CacheSound cfg (Memory.drop m a) where
  wf := Memory.wf_drop a h.wf
  room := (Memory.length_drop_le m a).trans h.room
  absent hp := by rw [h.absent hp, Memory.drop]

theorem CacheSound.write {cfg : Config} {m : Memory} (h : CacheSound cfg m) (a w : Word) (hp : cfg.pipelined = true)
    (hr : m.length < 2 ^ cfg.lgicache) : CacheSound cfg (Memory.write m a.toNat w) where
  wf := Memory.wf_write a w h.wf
  room := (Memory.length_write_le m a.toNat w).trans hr
  absent hn := by simp [hp] at hn

theorem State.Steady.withCache (h : s.Steady) {m : Memory} (hm : CacheSound s.cfg m) :
    ({ s with icache := m } : State).Steady := { h with cache := hm }

theorem State.Sound.withCache (h : s.Sound) {m : Memory} (hm : CacheSound s.cfg m) :
    ({ s with icache := m } : State).Sound := { h with cache := hm }

/-- Keeping a word changes at most the cache, which stays sound. -/
theorem State.keepInCache_cases (s : State) (a w : Word) (h : CacheSound s.cfg s.icache) :
    ∃ m, CacheSound s.cfg m ∧ s.keepInCache a w = { s with icache := m } := by
  unfold State.keepInCache
  split
  · rename_i hc
    simp only [Bool.and_eq_true, decide_eq_true_eq] at hc
    exact ⟨_, h.write a w hc.1 hc.2, rfl⟩
  · exact ⟨s.icache, h, rfl⟩

theorem State.Steady.evict (h : s.Steady) (a : Word) : (s.evict a).Steady := h.withCache (h.cache.drop _)

/-! ### The peripherals -/

theorem Timer.tick_reload (t : Timer) : t.tick.1.reload = t.reload := by
  unfold Timer.tick
  split
  · rfl
  · split
    · rfl
    · rfl

theorem Periph.Sound.count {p : Periph} (h : p.Sound) (cfg : Config) (events : Vector Nat 8) : (p.count cfg events).Sound := by
  unfold Periph.count
  split
  · exact ⟨h.watchdog_oneshot, h.dma_idle_empty⟩
  · exact h

theorem Periph.Sound.clock {p : Periph} (h : p.Sound) (cfg : Config) (gie : Bool) (ext : BitVec 24) :
    (p.clock cfg gie ext).1.Sound :=
  ⟨p.wdt.tick_reload.trans h.watchdog_oneshot, (h.count cfg _).dma_idle_empty⟩

/-- A write of DMACTRL leaves no words in an idle controller: a start empties the buffer. -/
theorem Dma.writeCtrl_idle_empty {d : Dma} (w : Word) (h : d.active = false → d.buffer = []) :
    (d.writeCtrl w).1.active = false → (d.writeCtrl w).1.buffer = [] := by
  unfold Dma.writeCtrl
  split
  · exact h
  · exact fun _ => rfl

theorem Dma.writeCtrl_active {d : Dma} (w : Word) (h : d.active = true) : (d.writeCtrl w).1.active = true := by
  simp [Dma.writeCtrl, h]

/-- The DMA controller after a register write: as it was, or one of its own registers written. -/
theorem Periph.write_dma (p : Periph) (cfg : Config) (ext : BitVec 24) (k : Fin 20) (w : Word) :
    (p.write cfg ext k w).dma ∈
      [p.dma, (p.dma.writeCtrl w).1, p.dma.writeLen w, p.dma.writeSrc w, p.dma.writeDst w] := by
  unfold Periph.write
  split <;> simp

theorem Periph.write_wdt (p : Periph) (cfg : Config) (ext : BitVec 24) (k : Fin 20) (w : Word) :
    (p.write cfg ext k w).wdt = p.wdt ∨ (p.write cfg ext k w).wdt = Timer.writeOneShot w := by
  unfold Periph.write
  split <;> simp

theorem Dma.idle_empty_of_write {d d' : Dma} {w : Word}
    (hd : d' ∈ [d, (d.writeCtrl w).1, d.writeLen w, d.writeSrc w, d.writeDst w]) (h : d.active = false → d.buffer = []) :
    d'.active = false → d'.buffer = [] := by
  simp only [List.mem_cons, List.not_mem_nil, or_false] at hd
  rcases hd with rfl | rfl | rfl | rfl | rfl
  · exact h
  · exact Dma.writeCtrl_idle_empty w h
  · unfold Dma.writeLen
    split <;> exact h
  · unfold Dma.writeSrc
    split <;> exact h
  · unfold Dma.writeDst
    split <;> exact h

/-- No register write stops a transfer. -/
theorem Dma.active_of_write {d d' : Dma} {w : Word}
    (hd : d' ∈ [d, (d.writeCtrl w).1, d.writeLen w, d.writeSrc w, d.writeDst w]) (h : d.active = true) :
    d'.active = true := by
  simp only [List.mem_cons, List.not_mem_nil, or_false] at hd
  rcases hd with rfl | rfl | rfl | rfl | rfl
  · exact h
  · exact Dma.writeCtrl_active w h
  · simp [Dma.writeLen, h]
  · simp [Dma.writeSrc, h]
  · simp [Dma.writeDst, h]

theorem Periph.Sound.write {p : Periph} (h : p.Sound) (cfg : Config) (ext : BitVec 24) (k : Fin 20) (w : Word) :
    (p.write cfg ext k w).Sound where
  watchdog_oneshot := by
    rcases p.write_wdt cfg ext k w with hw | hw
    · rw [hw]
      exact h.watchdog_oneshot
    · rw [hw]
      rfl
  dma_idle_empty := Dma.idle_empty_of_write (p.write_dma cfg ext k w) h.dma_idle_empty

theorem Periph.write_active {p : Periph} (cfg : Config) (ext : BitVec 24) (k : Fin 20) (w : Word)
    (h : p.dma.active = true) : (p.write cfg ext k w).dma.active = true :=
  Dma.active_of_write (p.write_dma cfg ext k w) h

/-! ### Bus transactions -/

theorem State.BusSound.withPer (h : s.BusSound) {p : Periph} (hp : p.Sound) : ({ s with per := p } : State).BusSound :=
  { h with per := hp }

/-- Where the other end of the bus stays sound, a transaction of another master keeps every clause. -/
theorem State.Steady.masters (h : s.Steady) (hm : s.MastersOnly t) (hb : t.BusSound) : t.Steady := by
  obtain ⟨m, p, d, l, rfl⟩ := hm
  exact { h with mem_wf := hb.mem_wf, per := hb.per }

theorem State.Sound.masters (h : s.Sound) (hm : s.MastersOnly t) (hb : t.BusSound) : t.Sound := by
  obtain ⟨m, p, d, l, rfl⟩ := hm
  exact { h with mem_wf := hb.mem_wf, per := hb.per }

theorem State.BusSound.busRead (h : s.BusSound) (a : Word) : (s.busRead a).2.BusSound := by
  obtain ⟨l, w, d, hr⟩ := s.busRead_frame a
  rw [hr]
  exact ⟨h.mem_wf, h.per.watchdog_oneshot, h.per.dma_idle_empty⟩

/-- What a bus write does to memory and to the peripherals. -/
theorem State.busWrite_mem_per (s : State) (a w : Word) :
    ((s.busWrite a w).2.mem = s.mem ∨ (s.busWrite a w).2.mem = Memory.write s.mem a.toNat w)
    ∧ ((∃ v, (s.busWrite a w).2.per = { s.per with wbu := v })
      ∨ ∃ k, (s.busWrite a w).2.per = s.per.write s.cfg s.extLines k w) := by
  unfold State.busWrite
  rcases s.transact_cases a with ⟨v, h⟩ | h
  · rw [h]
    exact ⟨.inl rfl, .inl ⟨v, rfl⟩⟩
  · rw [h]
    rcases targetAt s.cfg a with _ | (k | (_ | _ | _))
    · exact ⟨.inl rfl, .inl ⟨s.per.wbu, rfl⟩⟩
    · exact ⟨.inl rfl, .inr ⟨k, rfl⟩⟩
    · exact ⟨.inr rfl, .inl ⟨s.per.wbu, rfl⟩⟩
    · exact ⟨.inl rfl, .inl ⟨s.per.wbu, rfl⟩⟩
    · exact ⟨.inl rfl, .inl ⟨s.per.wbu, rfl⟩⟩

theorem State.BusSound.busWrite (h : s.BusSound) (a w : Word) : (s.busWrite a w).2.BusSound := by
  obtain ⟨hm, hp⟩ := s.busWrite_mem_per a w
  constructor
  · rcases hm with hm | hm
    · rw [hm]
      exact h.mem_wf
    · rw [hm]
      exact Memory.wf_write a w h.mem_wf
  · rcases hp with ⟨v, hp⟩ | ⟨k, hp⟩
    · rw [hp]
      exact ⟨h.per.watchdog_oneshot, h.per.dma_idle_empty⟩
    · rw [hp]
      exact h.per.write _ _ k w

theorem State.BusSound.drainPosted (h : s.BusSound) : s.drainPosted.2.BusSound := by
  unfold State.drainPosted
  split
  · exact h
  · exact State.BusSound.busWrite (s := { s with posted := none }) ⟨h.mem_wf, h.per⟩ _ _

/-- Completing the store in flight is a transaction like any other, but that no store is in flight after it. -/
theorem State.drainPosted_masters (s : State) : ({ s with posted := none } : State).MastersOnly s.drainPosted.2 := by
  rcases s.drainPosted_cases with ⟨hp, hd⟩ | ⟨l, p, hd⟩ | ⟨l, a, w, _, hd⟩
  · rw [hd, ← hp]
    exact .refl s
  · rw [hd]
    exact ⟨s.mem, p, s.draws, l, rfl⟩
  · rw [hd]
    exact ⟨_, s.per, s.draws, l, rfl⟩

theorem State.Steady.drainPosted (h : s.Steady) : s.drainPosted.2.Steady :=
  State.Steady.masters (s := { s with posted := none }) { h with } s.drainPosted_masters h.bus.drainPosted

theorem State.Sound.drainPosted (h : s.Sound) : s.drainPosted.2.Sound :=
  State.Sound.masters (s := { s with posted := none }) { h with } s.drainPosted_masters h.bus.drainPosted

theorem State.drainPosted_halted (s : State) : s.drainPosted.2.halted = s.halted := by
  obtain ⟨m, p, d, l, hd⟩ := s.drainPosted_masters
  rw [hd]

/-! ### The DMA controller and other masters -/

/-- Sound while a transfer runs. -/
structure State.Copying (s : State) : Prop extends s.BusSound where
  active : s.per.dma.active = true

/-- While a transfer runs, its running values and buffer are free to change. -/
theorem State.Copying.withDma (h : s.Copying) {d : Dma} (hd : d.active = true) :
    ({ s with per := { s.per with dma := d } } : State).Copying where
  mem_wf := h.mem_wf
  per := ⟨h.per.watchdog_oneshot, by simp [hd]⟩
  active := hd

theorem State.Copying.busRead (h : s.Copying) (a : Word) : (s.busRead a).2.Copying where
  toBusSound := h.toBusSound.busRead a
  active := by
    obtain ⟨l, w, d, hr⟩ := s.busRead_frame a
    rw [hr]
    exact h.active

theorem State.Copying.busWrite (h : s.Copying) (a w : Word) : (s.busWrite a w).2.Copying where
  toBusSound := h.toBusSound.busWrite a w
  active := by
    rcases (s.busWrite_mem_per a w).2 with ⟨v, hp⟩ | ⟨k, hp⟩
    · rw [hp]
      exact h.active
    · rw [hp]
      exact Periph.write_active _ _ k w h.active

theorem State.Copying.dmaRead (n : Nat) : ∀ {s : State}, s.Copying → (State.dmaRead n s).2.Copying := by
  induction n with
  | zero => exact id
  | succ n ih =>
    intro s h
    have hr := h.busRead s.per.dma.curSrc
    unfold State.dmaRead
    generalize s.busRead s.per.dma.curSrc = r at hr
    obtain ⟨_ | v, t⟩ := r
    · exact hr
    · exact ih (hr.withDma hr.active)

theorem State.Copying.dmaWrite (l : List Word) : ∀ {s : State}, s.Copying → (State.dmaWrite l s).2.Copying := by
  induction l with
  | nil => exact id
  | cons v l ih =>
    intro s h
    have hw := h.busWrite s.per.dma.curDst v
    unfold State.dmaWrite
    generalize s.busWrite s.per.dma.curDst v = r at hw
    obtain ⟨_ | _, t⟩ := r
    · exact hw
    · exact ih (hw.withDma hw.active)

theorem State.BusSound.dmaAbort (h : s.BusSound) : s.dmaAbort.BusSound :=
  h.withPer ⟨h.per.watchdog_oneshot, fun _ => rfl⟩

theorem State.BusSound.dmaWritten (h : s.BusSound) : s.dmaWritten.BusSound := by
  unfold State.dmaWritten
  split
  · exact h.withPer ⟨h.per.watchdog_oneshot, fun _ => rfl⟩
  · exact h.withPer ⟨h.per.watchdog_oneshot, fun _ => rfl⟩

theorem State.BusSound.dmaMove (h : s.BusSound) : s.dmaMove.BusSound := by
  unfold State.dmaMove
  split
  · rename_i hc
    simp only [Bool.and_eq_true] at hc
    have hs : s.Copying := ⟨h, hc.1.2⟩
    split
    · split
      · have hr := hs.dmaRead s.per.dma.burst
        generalize State.dmaRead s.per.dma.burst s = r at hr
        obtain ⟨_ | _, t⟩ := r
        · exact hr.dmaAbort
        · exact hr.toBusSound
      · exact h
    · have hw := hs.dmaWrite s.per.dma.buffer
      generalize State.dmaWrite s.per.dma.buffer s = w at hw
      obtain ⟨_ | _, t⟩ := w
      · exact hw.dmaAbort
      · exact hw.dmaWritten
  · exact h

theorem State.BusSound.dmaMoves (n : Nat) : ∀ {s : State}, s.BusSound → (State.dmaMoves n s).BusSound := by
  induction n with
  | zero => exact id
  | succ n ih => exact fun h => ih h.dmaMove

theorem State.BusSound.masterWrite (h : s.BusSound) (p : Word × Word) : (s.masterWrite p).BusSound := by
  unfold State.masterWrite
  split
  · exact ⟨Memory.wf_write p.1 p.2 h.mem_wf, h.per⟩
  · exact h

theorem State.BusSound.grantBus (h : s.BusSound) : s.grantBus.BusSound :=
  .dmaMoves _ (List.foldlRecOn _ _ h fun _ ht p _ => ht.masterWrite p)

end Sys2Proof.Machine
end

section
/-! ## Every operation keeps the invariant's clauses -/

namespace Sys2Proof.Machine

open Sys2Proof

variable {s t : State}

/-! ### Registers and CC -/

theorem State.Steady.registers (h : s.Steady) (user : Bool) (r : Vector Word 14) (pc : Word) (f : Flags) :
    (s.withSet user { s.set user with r := r, pc := pc, flags := f }).Steady := by
  cases user with
  | false => exact { h with }
  | true => exact { h with }

theorem State.Sound.registers (h : s.Sound) (user : Bool) (r : Vector Word 14) (pc : Word) (f : Flags) :
    (s.withSet user { s.set user with r := r, pc := pc, flags := f }).Sound := by
  cases user with
  | false => exact { h with }
  | true => exact { h with }

theorem State.Steady.returnToUser (h : s.Steady) : s.returnToUser.Steady :=
  { h with
    fp_never := ⟨h.fp_never.1, rfl⟩
    user_no_cause := fun _ => ⟨rfl, rfl, rfl, rfl, rfl, rfl⟩ }

theorem State.Steady.supWriteSCC (h : s.Steady) (v : Word) : (s.supWriteSCC v).Steady := by
  have hc : CacheSound s.cfg (if v.getLsbD 14 then [] else s.icache) := by
    split
    · exact .empty _
    · exact h.cache
  unfold State.supWriteSCC
  dsimp only
  split
  · exact State.Steady.returnToUser { h with cache := hc }
  · exact { h with cache := hc }

theorem State.Steady.supWriteUCC (h : s.Steady) (v : Word) : (s.supWriteUCC v).Steady :=
  { h with
    user_no_cause := fun hg => by
      obtain ⟨hi, hb, hd, hp, ht, hu⟩ := h.user_no_cause hg
      simp [hi, hb, hd, hp, ht, hu] }

theorem State.supWriteSCC_storeErr (s : State) (v : Word) : (s.supWriteSCC v).storeErr = s.storeErr := by
  unfold State.supWriteSCC
  dsimp only
  split <;> rfl

theorem State.supWriteSCC_halted (s : State) (v : Word) : (s.supWriteSCC v).halted = s.halted := by
  unfold State.supWriteSCC
  dsimp only
  split <;> rfl

/-! ### Modes and exceptions -/

theorem State.Steady.enterSupervisor (h : s.Steady) (saved : Word) (phase : Bool) :
    (s.enterSupervisor saved phase).Steady :=
  { h with lock_range := Nat.zero_le _, halted_unlocked := fun _ => rfl, user_no_cause := nofun }

theorem State.Steady.enterSupervisor_sound (h : s.Steady) (he : s.storeErr = true → s.halted = true) (saved : Word)
    (phase : Bool) : (s.enterSupervisor saved phase).Sound :=
  { h.enterSupervisor saved phase with error_held := he, asleep_halted := nofun }

/-- A CPU that may be asleep in supervisor mode and running halts. -/
theorem State.Steady.haltIfAsleep (h : s.Steady) (he : s.storeErr = true → s.halted = true) : s.haltIfAsleep.Sound := by
  unfold State.haltIfAsleep
  split
  · exact { h with
      lock_range := Nat.zero_le _
      halted_unlocked := fun _ => rfl
      error_held := fun _ => rfl
      asleep_halted := fun _ _ => rfl }
  · rename_i hc
    exact { h with
      error_held := he
      asleep_halted := fun hg hs => by simpa [hg, hs] using hc }

theorem RegSet.mark_fpErr (rs : RegSet) (c : Cause) : (rs.mark c).fpErr = rs.fpErr := by
  cases c <;> rfl

/-- An exception leaves the supervisor running awake, or a halted CPU; PHASE is never set for a BREAK (48_vliw.md R231). -/
theorem State.Steady.takeException (h : s.Steady) (he : s.storeErr = true → s.halted = true) (c : Cause) (saved : Word)
    (phase : Bool) (hc : c = .break_ → phase = false) : (s.takeException c saved phase).Sound := by
  unfold State.takeException
  split
  · split
    · rename_i hb
      split
      · exact { h with
          lock_range := Nat.zero_le _
          halted_unlocked := fun _ => rfl
          user_no_cause := fun hg => by
            obtain ⟨hi, hb', hd, _, ht, hu⟩ := h.user_no_cause hg
            exact ⟨hi, hb', hd, hc hb, ht, hu⟩
          error_held := fun _ => rfl
          asleep_halted := fun _ _ => rfl }
      · have hu : ({ s with gie := false, ubreak := true } : State).Steady := { h with user_no_cause := nofun }
        exact hu.enterSupervisor_sound he saved phase
    · have hu : ({ s with gie := false, usr := s.usr.mark c } : State).Steady :=
        { h with fp_never := ⟨h.fp_never.1, (s.usr.mark_fpErr c).trans h.fp_never.2⟩, user_no_cause := nofun }
      exact hu.enterSupervisor_sound he saved phase
  · exact { h with
      lock_range := Nat.zero_le _
      halted_unlocked := fun _ => rfl
      fp_never := ⟨(s.sup.mark_fpErr c).trans h.fp_never.1, h.fp_never.2⟩
      error_held := fun _ => rfl
      asleep_halted := fun _ _ => rfl }

theorem State.Steady.deliverStoreError (h : s.Steady) : s.deliverStoreError.Sound :=
  State.Steady.takeException (s := { s with storeErr := false }) { h with } nofun .busError _ _ nofun

/-! ### Instructions -/

/-- Sound and not halted: an instruction is running. -/
def State.Running (s : State) : Prop := s.Sound ∧ s.halted = false

theorem State.Running.masters (h : s.Running) (hm : s.MastersOnly t) (hb : t.BusSound) : t.Running := by
  refine ⟨h.1.masters hm hb, ?_⟩
  obtain ⟨m, p, d, l, rfl⟩ := hm
  exact h.2

theorem State.Running.drainPosted (h : s.Running) : s.drainPosted.2.Running :=
  ⟨h.1.drainPosted, s.drainPosted_halted.trans h.2⟩

theorem State.Sound.userWriteCC (h : s.Sound) (hg : s.gie = true) (v : Word) : (s.userWriteCC v).Sound := by
  have hno : ∀ b, s.gie = false → b = true → s.halted = true := fun _ hf => by simp [hg] at hf
  unfold State.userWriteCC
  dsimp only
  split
  · exact { h with asleep_halted := hno _ }
  · have hu : ({ s with gie := false, trap := true, usr := { s.usr with flags := flagsOfWord v } } : State).Steady :=
      { h with user_no_cause := nofun }
    exact hu.enterSupervisor_sound h.error_held _ _

/-- The shared operations of an instruction. -/
theorem State.sound_upkeep : Upkeep State.Running State.Sound where
  weaken h := h.1
  registers {s} user r pc f h _ := ⟨h.1.registers user r pc f, by simpa using h.2⟩
  ownCC {s} v h := by
    unfold State.writeReg
    dsimp only
    split
    · rename_i hg
      exact h.1.userWriteCC hg v
    · refine (h.1.toSteady.supWriteSCC v).haltIfAsleep ?_
      rw [s.supWriteSCC_storeErr, s.supWriteSCC_halted]
      exact h.1.error_held
  userCC v h _ := (h.1.toSteady.supWriteUCC v).haltIfAsleep h.1.error_held
  exception saved phase h hc := h.1.toSteady.takeException h.1.error_held _ saved phase fun hb => absurd hb hc
  read {s} a h := h.masters (s.busRead_masters a) (h.1.bus.busRead a)
  landed h := h.drainPosted
  granted {s} h := h.masters s.grantBus_frame h.1.bus.grantBus
  posting p h := ⟨{ h.1 with }, h.2⟩
  drawing d h := ⟨{ h.1 with }, h.2⟩
  locking {s} h := by
    have hne : ¬s.halted = true := by simp [h.2]
    exact ⟨{ h.1 with lock_range := Nat.le_refl 3, halted_unlocked := fun hh => absurd hh hne }, h.2⟩

theorem State.Running.exec {i : Instr} (h : s.Running) (he : exec i s = .next t) : t.Sound := by
  by_cases hi : ∃ bit27 payload, i = .brk bit27 payload
  · obtain ⟨bit27, payload, rfl⟩ := hi
    cases he
    exact h.1.toSteady.takeException h.1.error_held .break_ _ false fun _ => rfl
  · exact State.sound_upkeep.exec h (fun bit27 payload hb => hi ⟨bit27, payload, hb⟩) he

theorem lockAfter_le (i : Instr) (n : Nat) : lockAfter i n ≤ n := by
  unfold lockAfter
  split
  · exact Nat.le_refl n
  · exact Nat.sub_le n 1

theorem State.Sound.lockStep (h : s.Sound) (i : Instr) : (s.lockStep i).Sound :=
  { h with
    lock_range := (lockAfter_le i s.lockLeft).trans h.lock_range
    halted_unlocked := fun hh => Nat.le_zero.mp ((lockAfter_le i s.lockLeft).trans (h.halted_unlocked hh).le) }

theorem State.Running.perform {i : Instr} (h : s.Running) (he : State.perform i s = .next t) : t.Sound := by
  obtain ⟨u, hu, rfl⟩ := State.perform_next.mp he
  exact (h.exec hu).lockStep i

/-- What runs where a store may be in flight: it is run from a running state, or the store's error comes in its place. -/
theorem State.Running.landBeforeHalt (h : s.Running) {run : State → Host.Outcome State Fault Refusal}
    (hrun : ∀ {s t : State}, s.Running → run s = .next t → t.Sound) (he : s.landBeforeHalt run = .next t) : t.Sound := by
  rcases s.landBeforeHalt_cases run with ⟨_, hl⟩ | ⟨_, _, _, hl⟩ | ⟨_, _, _, hl⟩
  · exact hrun h (hl.symm.trans he)
  · exact hrun h.drainPosted (hl.symm.trans he)
  · cases hl.symm.trans he
    exact h.drainPosted.1.toSteady.deliverStoreError

/-! ### Counting and fetching -/

theorem State.countEvents_cases (s : State) (h : s.per.Sound) (user : Bool) (memStalls fetchStalls insns : Nat) :
    ∃ p : Periph, p.Sound ∧ s.countEvents user memStalls fetchStalls insns = { s with per := p } := by
  unfold State.countEvents
  split
  · exact ⟨_, h.count _ _, rfl⟩
  · exact ⟨s.per, h, rfl⟩

theorem State.Running.countEvents (h : s.Running) (user : Bool) (memStalls fetchStalls insns : Nat) :
    (s.countEvents user memStalls fetchStalls insns).Running := by
  obtain ⟨p, hp, hc⟩ := s.countEvents_cases h.1.per user memStalls fetchStalls insns
  rw [hc]
  exact h.masters (.withPer s p) ⟨h.1.mem_wf, hp⟩

theorem State.Running.keepInCache (h : s.Running) (a w : Word) : (s.keepInCache a w).Running := by
  obtain ⟨m, hm, hk⟩ := s.keepInCache_cases a w h.1.cache
  rw [hk]
  exact ⟨h.1.withCache hm, h.2⟩

theorem State.Running.fetch (h : s.Running) : s.fetch.2.Running := by
  have hr := h.masters (s.busRead_masters s.active.pc) (h.1.bus.busRead _)
  unfold State.fetch
  split
  · exact h
  · generalize s.busRead s.active.pc = r at hr
    obtain ⟨_ | w, t⟩ := r
    · exact hr
    · dsimp only
      split
      · exact State.Running.keepInCache hr _ w
      · exact hr

theorem State.Running.runOne (h : s.Running) (he : s.runOne = .next t) : t.Sound := by
  have hf := h.fetch
  unfold State.runOne at he
  generalize s.fetch = f at hf he
  obtain ⟨_ | w, u⟩ := f
  · refine State.Running.landBeforeHalt hf (fun hs ht => ?_) he
    cases ht
    exact hs.1.toSteady.takeException hs.1.error_held .illegal _ _ nofun
  · exact State.Running.landBeforeHalt (State.Running.countEvents hf _ _ _ _) State.Running.perform he

/-! ### The end of a step -/

theorem State.Sound.stepSwitch (h : s.Sound) (ran : Bool) : (s.stepSwitch ran).Sound := by
  unfold State.stepSwitch
  split
  · exact h.toSteady.enterSupervisor_sound h.error_held _ _
  · exact h

theorem State.stepSwitch_halted (s : State) (ran : Bool) : (s.stepSwitch ran).halted = s.halted := by
  unfold State.stepSwitch
  split <;> rfl

theorem State.stepSwitch_posted (s : State) (ran : Bool) : (s.stepSwitch ran).posted = s.posted := by
  unfold State.stepSwitch
  split <;> rfl

theorem State.Inv.stepSwitch (h : s.Inv) (ran : Bool) : (s.stepSwitch ran).Inv := by
  refine (h.sound.stepSwitch ran).inv ?_
  rw [s.stepSwitch_halted, s.stepSwitch_posted]
  exact h.halted_settled

theorem State.landHeld_posted (s : State) : s.landHeld.posted = none := by
  rcases s.landHeld_cases with ⟨_, hl⟩ | ⟨_, hl⟩
  · rw [hl]
    exact s.drainPosted_posted
  · rw [hl]
    exact s.drainPosted_posted

theorem State.landHeld_halted (s : State) : s.landHeld.halted = s.halted := by
  rcases s.landHeld_cases with ⟨_, hl⟩ | ⟨_, hl⟩
  · rw [hl]
    exact s.drainPosted_halted
  · rw [hl]
    exact s.drainPosted_halted

theorem State.Steady.landHeld (h : s.Steady) : s.landHeld.Steady := by
  rcases s.landHeld_cases with ⟨_, hl⟩ | ⟨_, hl⟩
  · rw [hl]
    exact h.drainPosted
  · rw [hl]
    exact { h.drainPosted with }

theorem State.deliverStoreError_posted (s : State) : s.deliverStoreError.posted = s.posted := by
  obtain ⟨sup, usr, ub, g, sl, hl, he⟩ :=
    ({ s with storeErr := false } : State).takeException_frame .busError s.active.pc false
  rw [State.deliverStoreError, he]

theorem State.Sound.settleStore (h : s.Sound) : s.settleStore.Inv := by
  rcases s.settleStore_cases with ⟨hh, hs⟩ | ⟨hh, _, hs⟩ | ⟨_, _, _, hs⟩ | ⟨_, _, _, hs⟩
  · rw [hs]
    exact (h.toSteady.landHeld.sound_of_halted (s.landHeld_halted.trans hh)).inv fun _ => s.landHeld_posted
  · rw [hs]
    exact h.inv fun hh' => by simp [hh] at hh'
  · rw [hs]
    exact h.drainPosted.inv fun _ => s.drainPosted_posted
  · rw [hs]
    refine h.toSteady.drainPosted.deliverStoreError.inv fun _ => ?_
    rw [s.drainPosted.2.deliverStoreError_posted]
    exact s.drainPosted_posted

/-- The debug port's hold leaves a CPU that is halted, settled and out of any locked sequence. -/
theorem State.Steady.debugHalt (h : s.Steady) : s.debugHalt.Steady := by
  unfold State.debugHalt
  split
  · exact h
  · have hp : (s.withActive { s.active with phase := false }).Steady := by
      unfold State.withActive State.active
      cases hg : s.gie with
      | false => exact { h with }
      | true =>
        exact { h with
          user_no_cause := fun _ => by
            obtain ⟨hi, hb, hd, _, ht, hu⟩ := h.user_no_cause hg
            exact ⟨hi, hb, hd, rfl, ht, hu⟩ }
    exact { hp.landHeld with lock_range := Nat.zero_le _, halted_unlocked := fun _ => rfl }

theorem State.debugHalt_halted (s : State) : s.debugHalt.halted = true := by
  unfold State.debugHalt
  split
  · assumption
  · rfl

theorem State.debugHalt_posted (s : State) (h : s.halted = false) : s.debugHalt.posted = none := by
  simp [State.debugHalt, h, State.landHeld_posted]

theorem State.Sound.settle (h : s.Sound) (ran single : Bool) : (s.settle ran single).Inv := by
  unfold State.settle
  split
  · rename_i hc
    have hh : (s.stepSwitch ran).halted = false := by simp_all [State.stepSwitch_halted]
    exact ((h.stepSwitch ran).toSteady.debugHalt.sound_of_halted (State.debugHalt_halted _)).inv
      fun _ => State.debugHalt_posted _ hh
  · exact h.settleStore.stepSwitch ran

/-! ### The CPU's part of a step -/

theorem State.Steady.cpu (h : s.Steady) {single : Bool} (he : s.cpu single = .next t) : t.Inv := by
  unfold State.cpu at he
  split at he
  · rename_i hh
    cases he
    exact (h.sound_of_halted hh).settle _ _
  · rename_i hh
    split at he
    · cases he
      exact h.deliverStoreError.settle _ _
    · rename_i hs
      have herr : s.storeErr = true → s.halted = true := fun hf => absurd hf hs
      split at he
      · cases he
        exact (h.haltIfAsleep herr).settle _ _
      · rename_i hz
        have hsound : s.Sound :=
          { h with error_held := herr, asleep_halted := fun hg hsl => by simp [hg, hsl] at hz }
        split at he
        · cases he
          exact (h.enterSupervisor_sound herr _ _).settle _ _
        · split at he
          · cases he
            exact hsound.settle _ _
          · split at he
            · rename_i u hr
              cases he
              exact (State.Running.runOne ⟨hsound, Bool.eq_false_of_not_eq_true hh⟩ hr).settle _ _
            · cases he
            · cases he

/-! ### Reset and the other agents -/

/-- Whatever was in flight, a reset leaves a machine that has the invariant. -/
theorem State.Steady.warmReset (h : s.Steady) : s.warmReset.Inv := by
  have ht : (if s.cur.drain then s.drainPosted.2 else s).Steady := by
    split
    · exact h.drainPosted
    · exact h
  unfold State.warmReset
  exact {
    mem_wf := ht.mem_wf
    icache_wf := rfl
    icache_room := Nat.zero_le _
    icache_absent := fun _ => rfl
    lock_range := Nat.zero_le _
    fp_never := ⟨rfl, rfl⟩
    halted_settled := fun _ => rfl
    halted_unlocked := fun _ => rfl
    error_held := nofun
    asleep_halted := nofun
    user_no_cause := nofun
    watchdog_oneshot := rfl
    dma_idle_empty := fun _ => rfl }

/-- With the peripherals replaced by sound ones, the invariant stays. -/
theorem State.Inv.withPer (h : s.Inv) {p : Periph} (hp : p.Sound) : ({ s with per := p } : State).Inv :=
  { h with watchdog_oneshot := hp.watchdog_oneshot, dma_idle_empty := hp.dma_idle_empty }

/-- One clock: the peripherals tick, and the watchdog may reset the machine. -/
theorem State.clock_cases (s : State) (h : s.per.Sound) :
    ∃ p : Periph, p.Sound ∧ (s.clock = { s with per := p } ∨ s.clock = ({ s with per := p } : State).warmReset) := by
  unfold State.clock
  split
  · refine ⟨_, h.clock s.cfg s.gie s.extLines, ?_⟩
    dsimp only
    split
    · exact .inr rfl
    · exact .inl rfl
  · exact ⟨s.per, h, .inl rfl⟩

theorem State.Steady.clock (h : s.Steady) : s.clock.Steady := by
  obtain ⟨p, hp, hc | hc⟩ := s.clock_cases h.per
  · rw [hc]
    exact { h with per := hp }
  · rw [hc]
    exact (State.Steady.warmReset (s := { s with per := p }) { h with per := hp }).sound.toSteady

theorem State.Inv.clock (h : s.Inv) : s.clock.Inv := by
  obtain ⟨p, hp, hc | hc⟩ := s.clock_cases h.sound.per
  · rw [hc]
    exact h.withPer hp
  · rw [hc]
    exact (h.withPer hp).sound.toSteady.warmReset

theorem State.Steady.clocks (n : Nat) : ∀ {s : State}, s.Steady → (State.clocks n s).Steady := by
  induction n with
  | zero => exact id
  | succ n ih => exact fun h => ih h.clock

theorem State.Inv.clocks (n : Nat) : ∀ {s : State}, s.Inv → (State.clocks n s).Inv := by
  induction n with
  | zero => exact id
  | succ n ih => exact fun h => ih h.clock

theorem State.Steady.masterWrite (h : s.Steady) (p : Word × Word) : (s.masterWrite p).Steady :=
  h.masters (s.masterWrite_frame p) (h.bus.masterWrite p)

theorem State.Steady.prefetch (h : s.Steady) (a : Word) : (s.prefetch a).Steady := by
  have hr := h.masters (s.busRead_masters a) (h.bus.busRead a)
  unfold State.prefetch
  split
  · generalize s.busRead a = r at hr
    obtain ⟨_ | w, t⟩ := r
    · exact hr
    · obtain ⟨m, hm, hk⟩ := t.keepInCache_cases a w hr.cache
      dsimp only
      rw [hk]
      exact hr.withCache hm
  · exact h

theorem State.Steady.countEvents (h : s.Steady) (user : Bool) (memStalls fetchStalls insns : Nat) :
    (s.countEvents user memStalls fetchStalls insns).Steady := by
  obtain ⟨p, hp, hc⟩ := s.countEvents_cases h.per user memStalls fetchStalls insns
  rw [hc]
  exact { h with per := hp }

theorem State.Steady.dmaMoves (h : s.Steady) (n : Nat) : (State.dmaMoves n s).Steady :=
  h.masters (State.dmaMoves_frame n s) (.dmaMoves n h.bus)

/-- An action repeated over a list. -/
theorem State.Steady.foldl {α : Type} {act : State → α → State} (hact : ∀ {s : State} (a : α), s.Steady → (act s a).Steady)
    (h : s.Steady) (l : List α) : (l.foldl act s).Steady :=
  List.foldlRecOn l act h fun _ ht a _ => hact a ht

theorem State.Steady.agents (h : s.Steady) : s.agents.Steady :=
  have hmasters := h.foldl (fun p ht => ht.masterWrite p) s.cur.masters
  have hevicted := hmasters.foldl (fun a ht => ht.evict a) _
  have hfetched := hevicted.foldl (fun a ht => ht.prefetch a) _
  ((hfetched.clocks _).countEvents _ _ _ 0).dmaMoves _

/-! ### The host's access -/

theorem State.Steady.writeData (h : s.Steady) (w : Word) : (s.writeData w).Steady := by
  unfold State.writeData
  split
  · split
    · exact h.registers _ _ _ _
    · exact h.registers _ _ _ _
    · split
      · exact h.supWriteUCC w
      · exact h.supWriteSCC w
  · split
    · exact { h with per := h.per.write _ _ _ w }
    · exact h

theorem State.Steady.readData (h : s.Steady) : s.readData.Steady := by
  unfold State.readData
  split
  · exact { h with }
  · split
    · exact { h with }
    · exact { h with }

/-- A release leaves what the CPU then does with its sleep or its store's error to come. -/
theorem State.Steady.release (h : s.Steady) : ({ s with halted := false } : State).Steady :=
  { h with halted_unlocked := nofun }

theorem State.Steady.clearCacheIf (h : s.Steady) (clear : Bool) :
    (if clear then { s with icache := [] } else s).Steady := by
  split
  · exact h.withCache (.empty _)
  · exact h

theorem State.Steady.writeCtrl (h : s.Steady) (w : Word) : (s.writeCtrl w).1.Steady := by
  have hu : (if w.getLsbD 6 then ({ s with dbgAddr := w.extractLsb' 0 6 } : State).warmReset
      else { s with dbgAddr := w.extractLsb' 0 6 }).Steady := by
    split
    · exact (State.Steady.warmReset (s := { s with dbgAddr := w.extractLsb' 0 6 }) { h with }).sound.toSteady
    · exact { h with }
  unfold State.writeCtrl
  dsimp only
  split
  · exact (hu.clearCacheIf _).release
  · split
    · exact (hu.clearCacheIf _).debugHalt
    · exact (hu.clearCacheIf _).release

theorem State.Steady.hostAccess (h : s.Steady) {single : Bool} (he : s.hostAccess = some (t, single)) : t.Steady := by
  unfold State.hostAccess at he
  split at he
  · cases he
    exact h
  · split at he
    · cases he
      exact h
    · split at he
      · have hw := h.writeCtrl ‹Word›
        rw [Option.some.inj he] at hw
        exact hw
      · cases he
        exact { h with }
      · split at he
        · cases he
          exact h.writeData _
        · cases he
      · cases he
        exact h.readData

/-! ### The step -/

theorem State.Inv.loadEnv (h : s.Inv) : s.loadEnv.Inv := by
  unfold State.loadEnv
  split
  · exact { h with }
  · exact { h with }

theorem State.Inv.cycle (h : s.Inv) (he : s.cycle = .next t) : t.Inv := by
  unfold State.cycle at he
  split at he
  · cases he
    exact h.sound.toSteady.warmReset.clocks _
  · split at he
    · cases he
    · rename_i u single hu
      have hlook : u.agents.look.Steady := { (h.sound.toSteady.hostAccess hu).agents with }
      exact hlook.cpu he

end Sys2Proof.Machine

namespace Sys2Proof.Proofs

open Sys2Proof Sys2Proof.Machine

/-- Settles O50: the other agents keep the clauses of `State.Steady`, and the CPU's part of the step restores the rest. -/
theorem stepKeepsTheInvariant : Obligations.StepKeepsTheInvariant := fun _ _ h he => h.loadEnv.cycle he

end Sys2Proof.Proofs
end

section
/-! ## The status register (10_state.md R47, R48) -/

namespace Sys2Proof.Machine

open Sys2Proof Sys2Proof.Says

/-- Two concatenated fields as a number. -/
theorem toNat_append_eq_add {m n : Nat} (x : BitVec m) (y : BitVec n) :
    (x ++ y).toNat = x.toNat * 2 ^ n + y.toNat := by
  rw [BitVec.toNat_append, ← Nat.shiftLeft_add_eq_or_of_lt y.isLt, Nat.shiftLeft_eq]

theorem Flags.bits_toNat (f : Flags) :
    f.bits.toNat = f.v.toNat * 2 ^ 3 + f.n.toNat * 2 ^ 2 + f.c.toNat * 2 + f.z.toNat := by
  simp only [Flags.bits, toNat_append_eq_add, BitVec.toNat_ofBool]
  omega

/-- CC of either set as a sum of its fields, each at its bit. -/
theorem State.readCC_toNat (s : State) (user : Bool) :
    (s.readCC user).toNat = s.cfg.ccUpper.toNat * 2 ^ 16 + (s.set user).phase.toNat * 2 ^ 13
      + (s.set user).fpErr.toNat * 2 ^ 12 + (s.set user).divErr.toNat * 2 ^ 11 + (s.set user).busErr.toNat * 2 ^ 10
      + s.trap.toNat * 2 ^ 9 + (s.set user).ill.toNat * 2 ^ 8 + (if user then s.ubreak else s.breakEn).toNat * 2 ^ 7
      + (user && s.stepBit).toNat * 2 ^ 6 + user.toNat * 2 ^ 5 + s.sleep.toNat * 2 ^ 4 + (s.set user).flags.v.toNat * 2 ^ 3
      + (s.set user).flags.n.toNat * 2 ^ 2 + (s.set user).flags.c.toNat * 2 + (s.set user).flags.z.toNat := by
  simp only [State.readCC, toNat_append_eq_add, Flags.bits_toNat, BitVec.toNat_ofBool, BitVec.toNat_ofNat]
  omega

theorem State.readCC_eq_ofNat (s : State) (user : Bool) : s.readCC user = BitVec.ofNat 32 (s.readCC user).toNat := by
  rw [BitVec.ofNat_toNat, BitVec.setWidth_eq]

theorem State.readCC_advance (s : State) (user : Bool) : s.advance.readCC user = s.readCC user := by
  cases hg : s.gie <;> cases user <;>
    simp [State.advance, State.withActive, State.withSet, State.active, State.readCC, State.set, hg]

/-- `s` past the instruction with general register `n` of the running mode written. -/
theorem State.writeReg_gpr_advance (s : State) (n : Fin 14) (v : Word) :
    s.advance.writeReg (.gpr n) v = wrote s n v (own s).flags := by
  cases hg : s.gie <;>
    simp [State.writeReg_gpr, State.advance, State.withActive, State.withSet, State.active, State.set, wrote, withOwn, own,
      hg]

theorem State.supWriteSCC_eq (s : State) (v : Word) :
    s.supWriteSCC v = if v.getLsbD 5 then returned (sccWritten s v) else sccWritten s v := rfl

theorem State.supWriteUCC_eq (s : State) (v : Word) : s.supWriteUCC v = uccWritten s v := rfl

/-- In user mode nothing halts for being asleep. -/
theorem State.haltIfAsleep_user (s : State) (h : s.gie = true) : s.haltIfAsleep = s := by
  simp [State.haltIfAsleep, h]

theorem State.haltIfAsleep_supervisor (s : State) (h : s.gie = false) :
    s.haltIfAsleep = if s.sleep && !s.halted then
      { s with sup := { s.sup with phase := false }, halted := true, lockLeft := 0 } else s := by
  simp [State.haltIfAsleep, h]

end Sys2Proof.Machine

namespace Sys2Proof.Proofs

open Sys2Proof Sys2Proof.Machine Sys2Proof.Says

/-- Settles O38: the concatenation that CC reads as is the sum of its fields, and a MOV from CC reads the running mode's. -/
theorem ccReadsTheFields : Obligations.CcReadsTheFields := by
  intro s
  refine ⟨?_, ?_, fun n => ?_⟩
  · rw [State.readCC_eq_ofNat, State.readCC_toNat]
    simp
  · rw [State.readCC_eq_ofNat, State.readCC_toNat]
    simp
  · have hset : s.advance.movSet false = s.advance.gie := by simp [State.movSet]
    have hval : s.advance.readIn s.advance.gie .cc + (0#13).signExtend 32 = s.readCC s.gie := by
      simp [State.readIn, State.readCC_advance]
    calc exec (.mov (.gpr n) .always false .cc false 0#13) s
        = .next (s.advance.writeIn (s.advance.movSet false) (.gpr n)
            (s.advance.readIn (s.advance.movSet false) .cc + (0#13).signExtend 32)) := rfl
      _ = .next (s.advance.writeReg (.gpr n) (s.readCC s.gie)) := by rw [hset, hval, State.writeIn, if_pos rfl]
      _ = .next (wrote s n (s.readCC s.gie) (own s).flags) := by rw [State.writeReg_gpr_advance]

/-- Settles O39: the trap clears SLEEP, so the value's bit 4 matters only with bit 5 set. -/
theorem userWriteOfCc : Obligations.UserWriteOfCc := by
  intro s v hg
  simp only [State.writeReg, hg, if_true, State.userWriteCC]
  split
  · rfl
  · rfl

/-- Settles O40: bit 5 decides the mode the write leaves, and in supervisor mode SLEEP halts. -/
theorem supervisorWriteOfScc : Obligations.SupervisorWriteOfScc := by
  intro s v hg
  simp only [State.writeReg, hg, Bool.false_eq_true, if_false, State.supWriteSCC_eq]
  split
  · exact State.haltIfAsleep_user _ rfl
  · exact State.haltIfAsleep_supervisor _ hg

/-- Settles O41: uCC's third column, and in supervisor mode SLEEP halts. -/
theorem supervisorMoveToUcc : Obligations.SupervisorMoveToUcc := by
  intro s v hg
  have hne : ¬true = s.gie := by simp [hg]
  rw [State.writeIn, if_neg hne]
  show (s.supWriteUCC v).haltIfAsleep = _
  rw [State.supWriteUCC_eq]
  exact State.haltIfAsleep_supervisor _ hg

end Sys2Proof.Proofs
end

section
/-! ## LOD, STO and the store in flight (20_memory.md R81, R84)

A transaction neither reads nor writes a register set, so that a store in flight may be completed before the PC advances or
after. -/

namespace Sys2Proof.Machine

open Sys2Proof Sys2Proof.Says

theorem State.transact_withSet (s : State) (user : Bool) (rs : RegSet) (a : Word) :
    (s.withSet user rs).transact a = ((s.transact a).1, (s.transact a).2.withSet user rs) := by
  have ht : (s.withSet user rs).timesOut a = s.timesOut a := by simp [State.timesOut]
  have he : (s.withSet user rs).raisesErr a = s.raisesErr a := by simp [State.raisesErr]
  have hu : (s.withSet user rs).turn a = (s.turn a).withSet user rs := by cases user <;> rfl
  unfold State.transact
  rw [ht, he, hu, State.withSet_cfg]
  dsimp only
  split
  · cases user <;> rfl
  · split <;> rfl

theorem State.busWrite_withSet (s : State) (user : Bool) (rs : RegSet) (a w : Word) :
    (s.withSet user rs).busWrite a w = ((s.busWrite a w).1, (s.busWrite a w).2.withSet user rs) := by
  unfold State.busWrite
  rw [s.transact_withSet]
  generalize s.transact a = r
  obtain ⟨_ | k | _ | _ | _, t⟩ := r <;> cases user <;> rfl

theorem State.drainPosted_withSet (s : State) (user : Bool) (rs : RegSet) :
    (s.withSet user rs).drainPosted = (s.drainPosted.1, s.drainPosted.2.withSet user rs) := by
  unfold State.drainPosted
  rw [State.withSet_posted]
  cases s.posted with
  | none => rfl
  | some p =>
    obtain ⟨a, w⟩ := p
    have hn : ({ s.withSet user rs with posted := none } : State) = ({ s with posted := none } : State).withSet user rs := by
      cases user <;> rfl
    dsimp only
    rw [hn, State.busWrite_withSet]

theorem State.drainPosted_gie (s : State) : s.drainPosted.2.gie = s.gie := by
  obtain ⟨m, p, d, l, hd⟩ := s.drainPosted_masters
  rw [hd]

theorem State.drainPosted_active (s : State) : s.drainPosted.2.active = s.active := by
  obtain ⟨m, p, d, l, hd⟩ := s.drainPosted_masters
  rw [hd]
  rfl

theorem State.drainPosted_advance (s : State) :
    s.advance.drainPosted = (s.drainPosted.1, s.drainPosted.2.advance) := by
  simp only [State.advance, State.withActive, State.drainPosted_withSet, State.drainPosted_active, State.drainPosted_gie]

/-! ### Operands of an instruction that runs (40_execution_common.md R141) -/

theorem State.readReg_advance (s : State) (r : Reg) : s.advance.readReg r = regValue s r := by
  cases r with
  | gpr n => simp only [State.readReg_gpr, State.active_advance]; rfl
  | pc => simp only [State.readReg_pc, State.active_advance]; rfl
  | cc => rw [State.readReg_cc, State.advance_gie, State.readCC_advance]; rfl

theorem State.opB_advance (s : State) (b : OpB) : s.advance.opB b = operandB s b := by
  cases b with
  | imm i => rfl
  | reg br off => exact congrArg (· + off.signExtend 32) (s.readReg_advance br)

/-! ### LOD and STO once the bus is free (47_load_store.md R210, R211) -/

theorem State.waitForStore_landed {s t : State} (ctx : Ctx) (h : s.drainPosted = (true, t)) :
    s.waitForStore ctx = .done t := by
  simp [State.waitForStore, h]

theorem State.landed_advance {s t : State} (h : s.drainPosted = (true, t)) : s.advance.drainPosted = (true, t.advance) := by
  rw [s.drainPosted_advance, h]

theorem State.landed_active {s t : State} (h : s.drainPosted = (true, t)) : t.active = s.active := by
  simpa [h] using s.drainPosted_active

theorem State.landed_regValue {s t : State} (h : s.drainPosted = (true, t)) (r : Reg) : regValue t r = regValue s r := by
  obtain ⟨m, p, d, l, hd⟩ := s.drainPosted_masters
  rw [h] at hd
  subst hd
  cases r <;> rfl

theorem State.landed_operandB {s t : State} (h : s.drainPosted = (true, t)) (b : OpB) : operandB t b = operandB s b := by
  cases b with
  | imm i => rfl
  | reg br off => exact congrArg (· + off.signExtend 32) (State.landed_regValue h br)

/-- A landed store is not in flight: nothing is left to wait for. -/
theorem State.landed_again {s t : State} (h : s.drainPosted = (true, t)) : t.drainPosted = (true, t) :=
  t.drainPosted_none (by simpa [h] using s.drainPosted_posted)

/-- LOD that executes: the load, once the store in flight has landed. -/
theorem exec_lod_landed {s t : State} (dr : Reg) {cnd : Cond} (b : OpB) (hc : condHolds cnd s.active.flags = true)
    (h : s.drainPosted = (true, t)) : exec (.lod dr cnd b) s =
      .next (t.advance.loadInto ⟨t.active.pc, .whole, decide (cnd ≠ .always)⟩ dr (operandB t b)).state := by
  show Host.Outcome.next (s.runWord true cnd fun ctx u => bodyLod dr (u.opB b) ctx u) = _
  rw [s.runWord_executed _ hc]
  simp only [bodyLod, State.waitForStore_landed _ (State.landed_advance h), State.opB_advance, State.landed_operandB h,
    State.landed_active h]

/-- STO that executes: the word posted, once the store in flight has landed. -/
theorem exec_sto_landed {s t : State} (dr : Reg) {cnd : Cond} (b : OpB) (hc : condHolds cnd s.active.flags = true)
    (h : s.drainPosted = (true, t)) : exec (.sto dr cnd b) s =
      .next { t.advance with posted := some (operandB t b, regValue t dr) } := by
  show Host.Outcome.next (s.runWord true cnd fun ctx u => bodySto dr (u.opB b) ctx u) = _
  rw [s.runWord_executed _ hc]
  simp only [bodySto, State.waitForStore_landed _ (State.landed_advance h), State.opB_advance, State.readReg_advance,
    State.landed_operandB h, State.landed_regValue h, Ran.state]

theorem State.drainPosted_ram {s : State} {a v : Word} (hp : s.posted = some (a, v)) (hr : s.ramReady a) :
    s.drainPosted = (true, { s with posted := none, mem := Memory.write s.mem a.toNat v }) := by
  unfold State.drainPosted
  rw [hp]
  exact ({ s with posted := none } : State).busWrite_ram a v hr

/-- Whether an address answers is up to the build and the environment alone. -/
theorem State.ramReady_of_eq {s t : State} {a : Word} (hr : s.ramReady a) (hcfg : t.cfg = s.cfg) (hcur : t.cur = s.cur) :
    t.ramReady a := by
  unfold State.ramReady State.answersAs State.calm
  rw [hcfg, hcur]
  exact hr

theorem State.loadInto_read {s t : State} {a v : Word} (ctx : Ctx) (dr : Reg) (h : s.busRead a = (some v, t)) :
    s.loadInto ctx dr a = .done (t.writeReg dr v) := by
  simp [State.loadInto, h]

/-- LOD of a word of RAM into a general register, once the store in flight has landed. -/
theorem exec_lod_ram {s t : State} (n : Fin 14) {cnd : Cond} (b : OpB) (hc : condHolds cnd s.active.flags = true)
    (h : s.drainPosted = (true, t)) (hr : t.ramReady (operandB t b)) : exec (.lod (.gpr n) cnd b) s =
      .next (wrote t n (Memory.fetch t.mem (operandB t b)) (own t).flags) := by
  have hra : t.advance.ramReady (operandB t b) := State.ramReady_of_eq hr t.advance_cfg t.advance_cur
  rw [exec_lod_landed _ b hc h, State.loadInto_read _ _ (t.advance.busRead_ram _ hra), Ran.state, State.advance_mem,
    State.writeReg_gpr_advance]

theorem own_wrote (s : State) (n : Fin 14) (v : Word) (f : Flags) :
    own (wrote s n v f) = { own s with pc := (own s).pc + 1#32, r := (own s).r.set n v, flags := f } := by
  cases hg : s.gie <;> simp [wrote, withOwn, own, hg]

theorem wrote_mem (s : State) (n : Fin 14) (v : Word) (f : Flags) : (wrote s n v f).mem = s.mem :=
  s.withActive_mem _

/-- A store in flight is no operand. -/
theorem operandB_posting (s : State) (p : Option (Word × Word)) (b : OpB) :
    operandB { s with posted := p } b = operandB s b := by
  cases b with
  | imm i => rfl
  | reg br off => cases br <;> rfl

end Sys2Proof.Machine

namespace Sys2Proof.Proofs

open Sys2Proof Sys2Proof.Machine Sys2Proof.Says

/-- Settles O32: before and after the store has landed, either instruction comes to the same execution. -/
theorem memoryInstructionsWaitForTheStore : Obligations.MemoryInstructionsWaitForTheStore := by
  have hwait : ∀ (s t : State) (dr : Reg) (cnd : Cond) (b : OpB), condHolds cnd (own s).flags = true →
      s.drainPosted = (true, t) →
      exec (.lod dr cnd b) s = exec (.lod dr cnd b) t ∧ exec (.sto dr cnd b) s = exec (.sto dr cnd b) t := by
    intro s t dr cnd b hc hd
    have hct : condHolds cnd t.active.flags = true := (congrArg (condHolds cnd ·.flags) (State.landed_active hd)).trans hc
    have hdt := State.landed_again hd
    exact ⟨(exec_lod_landed dr b hc hd).trans (exec_lod_landed dr b hct hdt).symm,
      (exec_sto_landed dr b hc hd).trans (exec_sto_landed dr b hct hdt).symm⟩
  exact ⟨hwait, fun s dr cnd b a v hc hp hr => hwait s _ dr cnd b hc (State.drainPosted_ram hp hr)⟩

/-- Settles O33: the load finds the store in flight, which lands in the word that it then reads. -/
theorem loadSeesTheEarlierStore : Obligations.LoadSeesTheEarlierStore := by
  intro s n m b c hp hr hbc
  have hsto := exec_sto_landed (.gpr n) (cnd := .always) b rfl (s.drainPosted_none hp)
  have hready : (passed s).ramReady (operandB s b) := State.ramReady_of_eq hr s.advance_cfg s.advance_cur
  have hland := State.drainPosted_ram
    (s := { passed s with posted := some (operandB s b, regValue s (.gpr n)) }) rfl hready
  have haddr := (State.landed_operandB hland c).trans ((operandB_posting _ _ c).trans hbc)
  refine ⟨_, _, hsto, exec_lod_ram m c rfl hland (haddr.symm ▸ hready), ?_, fun x hx => ?_⟩
  · rw [own_wrote, haddr]
    simp [Memory.fetch_write, regValue]
  · rw [wrote_mem, Memory.fetch_write, if_neg hx]
    exact congrArg (Memory.fetch · x) s.advance_mem

end Sys2Proof.Proofs
end

section
/-! ## The other agents (20_memory.md R93; 70_reset_and_hazards.md R422)

Other masters, the cache, the clock and the DMA controller act on memory, the cache and the peripherals; only the watchdog's expiry
reaches the CPU. Until the clock has ticked no agent writes a register, so that a stopped watchdog stays so; the DMA controller,
which may write one, comes after the clock. -/

namespace Sys2Proof.Machine

open Sys2Proof

/-- What the other agents may change: what other masters may, and the cache. -/
def State.AgentsOnly (s t : State) : Prop :=
  ∃ m c p d l, t = { s with mem := m, icache := c, per := p, draws := d, cur := { s.cur with fates := l } }

variable {s t u : State}

theorem State.AgentsOnly.refl (s : State) : s.AgentsOnly s := ⟨s.mem, s.icache, s.per, s.draws, s.cur.fates, rfl⟩

theorem State.AgentsOnly.masters (h : s.AgentsOnly t) (hm : t.MastersOnly u) : s.AgentsOnly u := by
  obtain ⟨m, c, p, d, l, rfl⟩ := h
  obtain ⟨m', p', d', l', rfl⟩ := hm
  exact ⟨m', c, p', d', l', rfl⟩

theorem State.AgentsOnly.withCache (h : s.AgentsOnly t) (c : Memory) : s.AgentsOnly { t with icache := c } := by
  obtain ⟨m, _, p, d, l, rfl⟩ := h
  exact ⟨m, c, p, d, l, rfl⟩

/-- The agents have acted on `s`, and the watchdog is stopped. -/
def State.Unwatched (s t : State) : Prop := s.AgentsOnly t ∧ t.per.wdt.value = 0#31

theorem State.Unwatched.withCache (h : s.Unwatched t) (c : Memory) : s.Unwatched { t with icache := c } :=
  ⟨h.1.withCache c, h.2⟩

theorem State.masterWrite_per (s : State) (p : Word × Word) : (s.masterWrite p).per = s.per := by
  unfold State.masterWrite
  split <;> rfl

theorem State.Unwatched.masterWrite (h : s.Unwatched t) (p : Word × Word) : s.Unwatched (t.masterWrite p) :=
  ⟨h.1.masters (t.masterWrite_frame p), by rw [t.masterWrite_per]; exact h.2⟩

theorem State.Unwatched.evict (h : s.Unwatched t) (a : Word) : s.Unwatched (t.evict a) := h.withCache _

theorem State.Unwatched.keepInCache (h : s.Unwatched t) (a w : Word) : s.Unwatched (t.keepInCache a w) := by
  unfold State.keepInCache
  split
  · exact h.withCache _
  · exact h

theorem State.Unwatched.busRead (h : s.Unwatched t) (a : Word) : s.Unwatched (t.busRead a).2 := by
  refine ⟨h.1.masters (t.busRead_masters a), ?_⟩
  obtain ⟨l, w, d, hr⟩ := t.busRead_frame a
  rw [hr]
  exact h.2

theorem State.Unwatched.prefetch (h : s.Unwatched t) (a : Word) : s.Unwatched (t.prefetch a) := by
  have hr := h.busRead a
  unfold State.prefetch
  split
  · generalize t.busRead a = r at hr
    obtain ⟨_ | w, u⟩ := r
    · exact hr
    · exact State.Unwatched.keepInCache hr a w
  · exact h

/-- A stopped timer stays as it is and pulses no line. -/
theorem Timer.tick_stopped {t : Timer} (h : t.value = 0#31) : t.tick = (t, false) := by
  simp [Timer.tick, h]

theorem State.Unwatched.clock (h : s.Unwatched t) : s.Unwatched t.clock := by
  have hp : (t.per.clock t.cfg t.gie t.extLines).2 = false := congrArg Prod.snd (Timer.tick_stopped h.2)
  have hv : (t.per.clock t.cfg t.gie t.extLines).1.wdt.value = 0#31 :=
    (congrArg (·.1.value) (Timer.tick_stopped h.2)).trans h.2
  unfold State.clock
  split
  · dsimp only
    rw [hp]
    exact ⟨h.1.masters (.withPer t _), hv⟩
  · exact h

theorem State.Unwatched.clocks (n : Nat) : ∀ {t : State}, s.Unwatched t → s.Unwatched (State.clocks n t) := by
  induction n with
  | zero => exact id
  | succ n ih => exact fun h => ih h.clock

theorem State.countEvents_masters (s : State) (user : Bool) (memStalls fetchStalls insns : Nat) :
    s.MastersOnly (s.countEvents user memStalls fetchStalls insns) := by
  unfold State.countEvents
  split
  · exact .withPer s _
  · exact .refl s

/-- An action repeated over a list. -/
theorem State.Unwatched.foldl {α : Type} {act : State → α → State}
    (hact : ∀ {t : State} (a : α), s.Unwatched t → s.Unwatched (act t a)) (h : s.Unwatched t) (l : List α) :
    s.Unwatched (l.foldl act t) :=
  List.foldlRecOn l act h fun _ ht a _ => hact a ht

/-- With the watchdog stopped the agents change nothing of the CPU but its cache. -/
theorem State.agents_frame (s : State) (h : s.per.wdt.value = 0#31) : s.AgentsOnly s.agents :=
  have hs : s.Unwatched s := ⟨.refl s, h⟩
  have hmasters := hs.foldl (fun p ht => ht.masterWrite p) s.cur.masters
  have hevicted := hmasters.foldl (fun a ht => ht.evict a) _
  have hfetched := hevicted.foldl (fun a ht => ht.prefetch a) _
  have hclocked := hfetched.clocks _
  (hclocked.1.masters (State.countEvents_masters _ _ _ _ 0)).masters (State.dmaMoves_frame _ _)

end Sys2Proof.Machine

namespace Sys2Proof.Proofs

open Sys2Proof Sys2Proof.Machine

/-- Settles O47: with the watchdog stopped no agent reaches more than memory, the cache and the peripherals. -/
theorem otherAgentsLeaveTheCpu : Obligations.OtherAgentsLeaveTheCpu := by
  intro s h
  obtain ⟨m, c, p, d, l, ha⟩ := s.agents_frame h
  rw [ha]
  exact ⟨rfl, rfl, rfl, rfl, rfl, rfl, rfl, rfl, rfl, rfl, rfl, rfl, rfl⟩

end Sys2Proof.Proofs
end

section
/-! ## Fetching (20_memory.md R87 to R89) -/

namespace Sys2Proof.Machine

open Sys2Proof Sys2Proof.Says

variable {s t : State}

/-! ### Where the word comes from -/

theorem State.fetch_cached {w : Word} (hp : s.cfg.pipelined = true)
    (hw : Memory.read s.icache s.active.pc.toNat = some w) : s.fetch = (some w, s) := by
  simp [State.fetch, hp, hw]

/-- Without a cached copy the word is read on the bus, and the cache keeps it where the environment says so. -/
theorem State.fetch_read {w : Word} (hn : s.cfg.pipelined = false ∨ Memory.read s.icache s.active.pc.toNat = none)
    (hr : s.busRead s.active.pc = (some w, t)) :
    s.fetch = (some w, if t.cur.fill then t.keepInCache s.active.pc w else t) := by
  have hmiss : (if s.cfg.pipelined then Memory.read s.icache s.active.pc.toNat else none) = none := by
    rcases hn with hn | hn <;> simp [hn]
  simp only [State.fetch, hmiss, hr]

/-- A fetch that fails is a bus read that failed. -/
theorem State.busRead_of_fetch_failed (h : s.fetch = (none, t)) : s.busRead s.active.pc = (none, t) := by
  unfold State.fetch at h
  split at h
  · cases h
  · split at h
    · cases h
    · rename_i u hr
      cases h
      exact hr

theorem State.fetch_failed_frame (h : s.fetch = (none, t)) : s.MastersOnly t := by
  simpa [State.busRead_of_fetch_failed h] using s.busRead_masters s.active.pc

/-! ### Exceptions in the statements' terms -/

theorem State.takeException_illegal (s : State) : s.takeException .illegal s.active.pc false = illegalEntry s := by
  cases hg : s.gie with
  | false =>
    rw [s.takeException_supervisor _ _ _ hg]
    simp [illegalEntry, hg, State.active, RegSet.mark]
  | true =>
    rw [s.takeException_user _ _ hg (by decide)]
    simp [illegalEntry, hg, State.active]
    rfl

theorem State.takeException_busError (s : State) (phase : Bool) :
    s.takeException .busError s.active.pc phase = busErrorEntry s phase := by
  cases hg : s.gie with
  | false =>
    rw [s.takeException_supervisor _ _ _ hg]
    simp [busErrorEntry, hg, State.active, RegSet.mark]
  | true =>
    rw [s.takeException_user _ _ hg (by decide)]
    simp [busErrorEntry, hg, State.active]
    rfl

theorem State.deliverStoreError_eq (s : State) : s.deliverStoreError = storeErrorEntry s :=
  ({ s with storeErr := false } : State).takeException_busError false

theorem illegalEntry_gie (s : State) : (illegalEntry s).gie = false := by
  cases hg : s.gie <;> simp [illegalEntry, entered, hg]

theorem illegalEntry_posted (s : State) : (illegalEntry s).posted = s.posted := by
  cases hg : s.gie <;> simp [illegalEntry, entered, hg]

/-- In supervisor mode the exception halts (60_exceptions.md R330). -/
theorem illegalEntry_halted_supervisor (h : s.gie = false) : (illegalEntry s).halted = true := by
  simp [illegalEntry, h]

theorem illegalEntry_halted_user (h : s.gie = true) : (illegalEntry s).halted = s.halted := by
  simp [illegalEntry, entered, h]

theorem storeErrorEntry_gie (s : State) : (storeErrorEntry s).gie = false := by
  cases hg : s.gie <;> simp [storeErrorEntry, busErrorEntry, entered, hg]

theorem storeErrorEntry_posted (s : State) : (storeErrorEntry s).posted = s.posted := by
  rw [← s.deliverStoreError_eq, s.deliverStoreError_posted]

/-! ### What halts lets the store in flight land first (20_memory.md R82) -/

section
variable {run : State → Host.Outcome State Fault Refusal}

theorem State.landBeforeHalt_runs (h : ∀ u, run s = .next u → u.halted = false) : s.landBeforeHalt run = run s := by
  rcases s.landBeforeHalt_cases run with ⟨_, hl⟩ | ⟨_, ⟨u, hu, hh⟩, _, _⟩ | ⟨_, ⟨u, hu, hh⟩, _, _⟩
  · exact hl
  · simp [h u hu] at hh
  · simp [h u hu] at hh

variable {u : State} (hu : run s = .next u) (hh : u.halted = true)
include hu hh

theorem State.landBeforeHalt_landed (hd : s.drainPosted = (true, t)) : s.landBeforeHalt run = run t := by
  cases hp : s.posted with
  | none =>
    cases hd.symm.trans (s.drainPosted_none hp)
    simp [State.landBeforeHalt, hu, hp]
  | some p => simp [State.landBeforeHalt, hu, hh, hp, hd]

theorem State.landBeforeHalt_erred (hd : s.drainPosted = (false, t)) :
    s.landBeforeHalt run = .next (storeErrorEntry t) := by
  cases hp : s.posted with
  | none => cases hd.symm.trans (s.drainPosted_none hp)
  | some p => simp [State.landBeforeHalt, hu, hh, hp, hd, State.deliverStoreError_eq]

end

/-! ### A step at which the CPU executes (40_execution_common.md R140) -/

theorem step_undisturbed (h : Undisturbed s) : step s = (ready s).cpu false := by
  obtain ⟨hreset, hhost⟩ := h
  simp [step, State.cycle, hreset, State.hostAccess, hhost, ready]

/-- A CPU about to execute runs one word; then come the store in flight and STEP. -/
theorem State.cpu_executing (h : Executing s) (hr : s.runOne = .next t) :
    s.cpu false = .next (t.settleStore.stepSwitch s.gie) := by
  obtain ⟨hh, he, hs, hi⟩ := h
  have hno : s.takesInterrupt = false := hi
  simp [State.cpu, hh, he, hs, hno, hr, State.settle]

/-- STEP switches back from user mode alone (60_exceptions.md R346). -/
theorem State.stepSwitch_supervisor (ran : Bool) (h : s.gie = false) : s.stepSwitch ran = s := by
  simp [State.stepSwitch, h]

theorem State.landHeld_gie (s : State) : s.landHeld.gie = s.gie := by
  rcases s.landHeld_cases with ⟨_, hl⟩ | ⟨_, hl⟩
  · rw [hl]
    exact s.drainPosted_gie
  · rw [hl]
    exact s.drainPosted_gie

/-- In supervisor mode the store in flight, landing or erring, leaves the mode. -/
theorem State.settleStore_supervisor (h : s.gie = false) : s.settleStore.gie = false := by
  rcases s.settleStore_cases with ⟨_, hs⟩ | ⟨_, _, hs⟩ | ⟨_, _, _, hs⟩ | ⟨_, _, _, hs⟩
  · rw [hs, s.landHeld_gie, h]
  · rw [hs, h]
  · rw [hs, s.drainPosted_gie, h]
  · rw [hs, State.deliverStoreError_eq, storeErrorEntry_gie]

/-! ### A step whose fetch fails (60_exceptions.md R324) -/

theorem State.runOne_fetch_failed (h : s.fetch = (none, t)) :
    s.runOne = t.landBeforeHalt fun r => .next (illegalEntry r) := by
  simp only [State.runOne, h, State.takeException_illegal]

/-- A step whose word leaves the CPU in supervisor mode: STEP has no part in it. -/
theorem step_to_supervisor (hn : Undisturbed s) (he : Executing (ready s)) (hr : (ready s).runOne = .next t)
    (hg : t.gie = false) : step s = .next t.settleStore := by
  rw [step_undisturbed hn, State.cpu_executing he hr, State.stepSwitch_supervisor _ (State.settleStore_supervisor hg)]

section
variable {q r : State} (hn : Undisturbed s) (he : Executing (ready s)) (hf : (ready s).fetch = (none, q))
include hn he hf

/-- In user mode the exception switches and does not halt, and the store in flight settles as ever. -/
theorem step_fetch_failed_user (hg : q.gie = true) : step s = .next (illegalEntry q).settleStore := by
  have hq : q.halted = false := by
    obtain ⟨m, p, d, l, rfl⟩ := State.fetch_failed_frame hf
    exact he.1
  have hruns : ∀ u, Host.Outcome.next (illegalEntry q) = (.next u : Host.Outcome State Fault Refusal) → u.halted = false := by
    rintro _ ⟨⟩
    exact (illegalEntry_halted_user hg).trans hq
  exact step_to_supervisor hn he ((State.runOne_fetch_failed hf).trans (State.landBeforeHalt_runs hruns)) (illegalEntry_gie q)

/-- In supervisor mode it halts, and a store in flight has landed before. -/
theorem step_fetch_failed_landed (hg : q.gie = false) (hd : q.drainPosted = (true, r)) :
    step s = .next (illegalEntry r) := by
  have hrun := (State.runOne_fetch_failed hf).trans
    (State.landBeforeHalt_landed (s := q) rfl (illegalEntry_halted_supervisor hg) hd)
  have hsettled : (illegalEntry r).posted = none := by
    simpa [illegalEntry_posted, hd] using q.drainPosted_posted
  rw [step_to_supervisor hn he hrun (illegalEntry_gie r), State.settleStore_none _ hsettled]

/-- Or that store has erred, and its error comes in place of the fetch's. -/
theorem step_fetch_failed_erred (hg : q.gie = false) (hd : q.drainPosted = (false, r)) :
    step s = .next (storeErrorEntry r) := by
  have hrun := (State.runOne_fetch_failed hf).trans
    (State.landBeforeHalt_erred (s := q) rfl (illegalEntry_halted_supervisor hg) hd)
  have hsettled : (storeErrorEntry r).posted = none := by
    simpa [storeErrorEntry_posted, hd] using q.drainPosted_posted
  rw [step_to_supervisor hn he hrun (storeErrorEntry_gie r), State.settleStore_none _ hsettled]

end

end Sys2Proof.Machine

namespace Sys2Proof.Proofs

open Sys2Proof Sys2Proof.Machine Sys2Proof.Says

/-- Settles O7: the cache first, then the bus; of a failed fetch, the mode and the store in flight decide what the step is. -/
theorem fetchPrefersTheCache : Obligations.FetchPrefersTheCache := by
  refine ⟨fun s w => State.fetch_cached, fun s hmiss hram => ?_, fun s q hn he hf =>
    ⟨step_fetch_failed_user hn he hf, fun hg _ => step_fetch_failed_landed hn he hf hg,
      fun hg _ => step_fetch_failed_erred hn he hf hg⟩⟩
  rw [State.fetch_read hmiss (s.busRead_ram _ hram)]
  cases s.cur.fill <;> rfl

end Sys2Proof.Proofs
end

section
/-! ## The decoder and the encoder are inverse

For each format of 30_encoding.md R103 to R107 and 48_vliw.md R221 there are two lemmas: the fields of an encoded word are
those it was made of (`encodeStd_fields`), and a word is the encoding of its own fields (`encodeStd_of_fields`). With them each
row of the opcode table is looked at once in each direction. -/

namespace Sys2Proof

/-! ### Fields as numbers -/

theorem extractLsb'_toNat_eq_div_mod {n : Nat} (x : BitVec n) (s l : Nat) :
    (x.extractLsb' s l).toNat = x.toNat / 2 ^ s % 2 ^ l := by
  rw [BitVec.extractLsb'_toNat, Nat.shiftRight_eq_div_pow]

theorem getLsbD_toNat_eq_div_mod {n : Nat} (x : BitVec n) (i : Nat) : (x.getLsbD i).toNat = x.toNat / 2 ^ i % 2 :=
  Nat.toNat_testBit x.toNat i

theorem code_decodeReg (r : BitVec 4) : (decodeReg r).code = r := by
  revert r
  decide

theorem code_decodeCond (c : BitVec 3) : (decodeCond c).code = c := by
  revert c
  decide

theorem code_decodeCond2 (c : BitVec 2) : (decodeCond2 c).code = c := by
  revert c
  decide

theorem bits_decodeHalfB (b : BitVec 5) : (decodeHalfB b).bits = b.toNat := by
  revert b
  decide

theorem bits_decodeOpB (b : BitVec 19) : (decodeOpB b).bits = b.toNat := by
  have hb := b.isLt
  have hsel := getLsbD_toNat_eq_div_mod b 18
  cases h : b.getLsbD 18 with
  | true =>
    simp only [h, Bool.toNat_true] at hsel
    simp only [decodeOpB, h, if_true, OpB.bits, code_decodeReg, extractLsb'_toNat_eq_div_mod]
    omega
  | false =>
    simp only [h, Bool.toNat_false] at hsel
    simp only [decodeOpB, h, Bool.false_eq_true, if_false, OpB.bits, extractLsb'_toNat_eq_div_mod]
    omega

/-! ### Whole words -/

/-- The field that the opcode table is read by, in a word that is not VLIW (30_encoding.md R103, R112). -/
def opcode (w : Word) : Nat := (w.extractLsb' 22 5).toNat

theorem opcode_lt (w : Word) : opcode w < 32 := (w.extractLsb' 22 5).isLt

theorem extractLsb'_toNat_eq_opcode (w : Word) : (w.extractLsb' 22 5).toNat = opcode w := rfl

theorem opcode_eq_div_mod (w : Word) : opcode w = w.toNat / 2 ^ 22 % 2 ^ 5 := extractLsb'_toNat_eq_div_mod w 22 5

theorem inNoopSpace_eq_decide (w : Word) : inNoopSpace w = decide (w.toNat / 2 ^ 28 % 2 ^ 3 = 7) := by
  rw [inNoopSpace, Bool.beq_eq_decide_eq, ← extractLsb'_toNat_eq_div_mod]
  exact decide_eq_decide.mpr BitVec.toNat_inj.symm

/-- The NOOP group's space is where the field DR names no general register (30_encoding.md R107, R202). -/
theorem isGpr_decodeReg_eq_not_inNoopSpace (w : Word) : (decodeReg (w.extractLsb' 27 4)).isGpr = !inNoopSpace w := by
  have hreg : ∀ r : BitVec 4, (decodeReg r).isGpr = !decide (r.toNat / 2 % 2 ^ 3 = 7) := by decide
  rw [hreg, inNoopSpace_eq_decide, extractLsb'_toNat_eq_div_mod]
  congr 2
  exact propext (by omega)

theorem toNat_lt_of_bit31 {w : Word} (h31 : w.getLsbD 31 = false) : w.toNat < 2 ^ 31 := by
  have hbit := getLsbD_toNat_eq_div_mod w 31
  have hw := w.isLt
  rw [h31, Bool.toNat_false] at hbit
  omega

theorem decode_of_bit31_false {w : Word} (h31 : w.getLsbD 31 = false) : decode w = decodeSingle w := by
  rw [decode, h31, if_neg Bool.false_ne_true]

/-! ### The fields of an encoded word -/

theorem encodeStd_fields {op : Nat} (hop : op < 32) (dr : Reg) (cnd : Cond) (b : OpB) :
    opcode (encodeStd op dr cnd b) = op
    ∧ (encodeStd op dr cnd b).extractLsb' 27 4 = dr.code
    ∧ (encodeStd op dr cnd b).extractLsb' 19 3 = cnd.code
    ∧ (encodeStd op dr cnd b).extractLsb' 0 19 = BitVec.ofNat 19 b.bits := by
  have hdr := dr.code.isLt
  have hcnd := cnd.code.isLt
  have hb := b.bits_lt
  exact ⟨(toNat_field 22 5 (by omega)).trans (by omega), field_eq_bv 27 _ (by omega) (by omega),
    field_eq_bv 19 _ (by omega) (by omega), field_eq 0 19 _ (by omega) (by omega)⟩

theorem encodeGroup_fields {sel : Nat} (hsel : sel < 8) (bit27 : Bool) (payload : BitVec 22) :
    opcode (encodeGroup sel bit27 payload) = 0x18 + sel
    ∧ inNoopSpace (encodeGroup sel bit27 payload) = true
    ∧ (encodeGroup sel bit27 payload).getLsbD 27 = bit27
    ∧ (encodeGroup sel bit27 payload).extractLsb' 0 22 = payload := by
  have hbit := Bool.toNat_le bit27
  have hpayload := payload.isLt
  have hspace : (encodeGroup sel bit27 payload).extractLsb' 28 3 = 7#3 := field_eq 28 3 7 (by omega) (by omega)
  exact ⟨(toNat_field 22 5 (by omega)).trans (by omega), by rw [inNoopSpace, hspace, beq_self_eq_true],
    bit_eq 27 _ (by omega) (by omega), field_eq_bv 0 _ (by omega) (by omega)⟩

/-- Bit 22 of LDI is the immediate's highest, so LDI has two opcodes (30_encoding.md R106). -/
theorem encodeLdi_fields (dr : Reg) (imm : BitVec 23) :
    (opcode (encodeLdi dr imm) = 0x16 ∨ opcode (encodeLdi dr imm) = 0x17)
    ∧ (encodeLdi dr imm).extractLsb' 27 4 = dr.code
    ∧ (encodeLdi dr imm).extractLsb' 0 23 = imm := by
  have hdr := dr.code.isLt
  have himm := imm.isLt
  have hop : opcode (encodeLdi dr imm) = _ := toNat_field 22 5 (by omega)
  exact ⟨by omega, field_eq_bv 27 _ (by omega) (by omega), field_eq_bv 0 _ (by omega) (by omega)⟩

theorem encodeMov_fields (dr : Reg) (cnd : Cond) (a : Bool) (br : Reg) (b : Bool) (imm : BitVec 13) :
    opcode (encodeMov dr cnd a br b imm) = 0x0f
    ∧ (encodeMov dr cnd a br b imm).extractLsb' 27 4 = dr.code
    ∧ (encodeMov dr cnd a br b imm).extractLsb' 19 3 = cnd.code
    ∧ (encodeMov dr cnd a br b imm).getLsbD 18 = a
    ∧ (encodeMov dr cnd a br b imm).extractLsb' 14 4 = br.code
    ∧ (encodeMov dr cnd a br b imm).getLsbD 13 = b
    ∧ (encodeMov dr cnd a br b imm).extractLsb' 0 13 = imm := by
  have hdr := dr.code.isLt
  have hcnd := cnd.code.isLt
  have ha := Bool.toNat_le a
  have hbr := br.code.isLt
  have hb := Bool.toNat_le b
  have himm := imm.isLt
  exact ⟨(toNat_field 22 5 (by omega)).trans (by omega), field_eq_bv 27 _ (by omega) (by omega),
    field_eq_bv 19 _ (by omega) (by omega), bit_eq 18 _ (by omega) (by omega), field_eq_bv 14 _ (by omega) (by omega),
    bit_eq 13 _ (by omega) (by omega), field_eq_bv 0 _ (by omega) (by omega)⟩

theorem encodeVliw_fields (c2 : Bool) (cnd : Cond2) (f g : Half) :
    (encodeVliw c2 cnd f g).getLsbD 21 = c2
    ∧ (encodeVliw c2 cnd f g).extractLsb' 19 2 = cnd.code
    ∧ (encodeVliw c2 cnd f g).extractLsb' 27 4 = BitVec.ofNat 4 f.drBits
    ∧ (encodeVliw c2 cnd f g).extractLsb' 22 5 = BitVec.ofNat 5 f.opBits
    ∧ (encodeVliw c2 cnd f g).extractLsb' 14 5 = BitVec.ofNat 5 f.opbBits
    ∧ (encodeVliw c2 cnd f g).extractLsb' 10 4 = BitVec.ofNat 4 g.drBits
    ∧ (encodeVliw c2 cnd f g).extractLsb' 5 5 = BitVec.ofNat 5 g.opBits
    ∧ (encodeVliw c2 cnd f g).extractLsb' 0 5 = BitVec.ofNat 5 g.opbBits := by
  have hc2 := Bool.toNat_le c2
  have hcnd := cnd.code.isLt
  have hfdr := f.drBits_lt
  have hfop := f.opBits_lt
  have hfb := f.opbBits_lt
  have hgdr := g.drBits_lt
  have hgop := g.opBits_lt
  have hgb := g.opbBits_lt
  exact ⟨bit_eq 21 _ (by omega) (by omega), field_eq_bv 19 _ (by omega) (by omega), field_eq 27 4 _ (by omega) (by omega),
    field_eq 22 5 _ (by omega) (by omega), field_eq 14 5 _ (by omega) (by omega), field_eq 10 4 _ (by omega) (by omega),
    field_eq 5 5 _ (by omega) (by omega), field_eq 0 5 _ (by omega) (by omega)⟩

/-! ### A word is the encoding of its fields -/

theorem encodeStd_of_fields {w : Word} (h31 : w.getLsbD 31 = false) {op : Nat} (hop : opcode w = op) :
    encodeStd op (decodeReg (w.extractLsb' 27 4)) (decodeCond (w.extractLsb' 19 3)) (decodeOpB (w.extractLsb' 0 19)) = w := by
  have hw := toNat_lt_of_bit31 h31
  rw [opcode_eq_div_mod] at hop
  apply BitVec.eq_of_toNat_eq
  simp only [encodeStd, BitVec.toNat_ofNat, code_decodeReg, code_decodeCond, bits_decodeOpB, extractLsb'_toNat_eq_div_mod]
  omega

theorem encodeGroup_of_fields {w : Word} (h31 : w.getLsbD 31 = false) {op : Nat} (hop : opcode w = op) (hupper : 0x18 ≤ op)
    (hspace : inNoopSpace w = true) : encodeGroup (op - 0x18) (w.getLsbD 27) (w.extractLsb' 0 22) = w := by
  have hw := toNat_lt_of_bit31 h31
  rw [opcode_eq_div_mod] at hop
  rw [inNoopSpace_eq_decide, decide_eq_true_eq] at hspace
  apply BitVec.eq_of_toNat_eq
  simp only [encodeGroup, BitVec.toNat_ofNat, getLsbD_toNat_eq_div_mod, extractLsb'_toNat_eq_div_mod]
  omega

theorem encodeLdi_of_fields {w : Word} (h31 : w.getLsbD 31 = false) (hop : opcode w = 0x16 ∨ opcode w = 0x17) :
    encodeLdi (decodeReg (w.extractLsb' 27 4)) (w.extractLsb' 0 23) = w := by
  have hw := toNat_lt_of_bit31 h31
  rw [opcode_eq_div_mod] at hop
  apply BitVec.eq_of_toNat_eq
  simp only [encodeLdi, BitVec.toNat_ofNat, code_decodeReg, extractLsb'_toNat_eq_div_mod]
  omega

theorem encodeMov_of_fields {w : Word} (h31 : w.getLsbD 31 = false) (hop : opcode w = 0x0f) :
    encodeMov (decodeReg (w.extractLsb' 27 4)) (decodeCond (w.extractLsb' 19 3)) (w.getLsbD 18)
      (decodeReg (w.extractLsb' 14 4)) (w.getLsbD 13) (w.extractLsb' 0 13) = w := by
  have hw := toNat_lt_of_bit31 h31
  rw [opcode_eq_div_mod] at hop
  apply BitVec.eq_of_toNat_eq
  simp only [encodeMov, BitVec.toNat_ofNat, code_decodeReg, code_decodeCond, getLsbD_toNat_eq_div_mod,
    extractLsb'_toNat_eq_div_mod]
  omega

/-! ### VLIW halves -/

/-- A half that stands for 14 bits of a word, and for which: the fields `DR`, `Op` and `OpB` (48_vliw.md R221). -/
structure Half.Represents (h : Half) (dr : BitVec 4) (op : BitVec 5) (b : BitVec 5) : Prop where
  wellFormed : h.wellFormed = true
  dr : h.drBits = dr.toNat
  op : h.opBits = op.toNat
  opB : h.opbBits = b.toNat

theorem decodeHalf_std (op : StdOp) (dr : BitVec 4) (b : BitVec 5) :
    decodeHalf dr (BitVec.ofNat 5 op.code) b = .std op (decodeReg dr) (decodeHalfB b) := by
  cases op <;> rfl

/-- `Op[4:3]` = 11: the NOOP group or an opcode of no build, as `DR` says (48_vliw.md R222, R227). -/
theorem decodeHalf_upper {op : BitVec 5} (hop : 0x18 ≤ op.toNat) (dr : BitVec 4) (b : BitVec 5) :
    decodeHalf dr op b =
      if (decodeReg dr).isGpr then .unbuilt (op.extractLsb' 0 3) (decodeReg dr) b
      else .group (dr.getLsbD 0) (op.extractLsb' 0 3) b := by
  have hdr : (decodeReg dr).isGpr = !decide (dr.extractLsb' 1 3 = 7#3) := by
    revert dr
    decide
  have hsel : decodeHalf dr op b =
      if dr.extractLsb' 1 3 = 7#3 then .group (dr.getLsbD 0) (op.extractLsb' 0 3) b
      else .unbuilt (op.extractLsb' 0 3) (decodeReg dr) b := by
    unfold decodeHalf
    split
    case h_25 => rfl
    all_goals omega
  rw [hsel, hdr]
  by_cases h : dr.extractLsb' 1 3 = 7#3 <;> simp [h]

theorem upperOp_toNat (sel : BitVec 3) : (BitVec.ofNat 5 (0x18 + sel.toNat)).toNat = 0x18 + sel.toNat := by
  revert sel
  decide

theorem upperOp_sel (sel : BitVec 3) : (BitVec.ofNat 5 (0x18 + sel.toNat)).extractLsb' 0 3 = sel := by
  revert sel
  decide

theorem decodeHalf_fields {h : Half} (hwf : h.wellFormed = true) :
    decodeHalf (BitVec.ofNat 4 h.drBits) (BitVec.ofNat 5 h.opBits) (BitVec.ofNat 5 h.opbBits) = h := by
  cases h with
  | std op dr b =>
    simp [Half.drBits, Half.opBits, Half.opbBits, decodeHalf_std, decodeReg_code, decodeHalfB_bits]
  | mov dr b =>
    have hmov : ∀ r c, decodeHalf r 0x0f#5 c = .mov (decodeReg r) (decodeHalfB c) := fun _ _ => rfl
    simp [Half.drBits, Half.opBits, Half.opbBits, hmov, decodeReg_code, decodeHalfB_bits]
  | ldi dr low imm =>
    have hldi : ∀ r, decodeHalf r (BitVec.ofNat 5 (0x16 + low.toNat)) imm = .ldi (decodeReg r) low imm := by
      cases low <;> exact fun _ => rfl
    simp [Half.drBits, Half.opBits, Half.opbBits, hldi, decodeReg_code]
  | group bit sel rsvd =>
    have hop : 0x18 ≤ (BitVec.ofNat 5 (0x18 + sel.toNat)).toNat := by
      rw [upperOp_toNat]
      omega
    have hdr : (decodeReg (BitVec.ofNat 4 (14 + bit.toNat))).isGpr = false
        ∧ (BitVec.ofNat 4 (14 + bit.toNat)).getLsbD 0 = bit := by
      cases bit <;> decide
    obtain ⟨hgpr, hbit⟩ := hdr
    simp only [Half.drBits, Half.opBits, Half.opbBits]
    rw [decodeHalf_upper hop, hgpr, hbit, upperOp_sel]
    simp
  | unbuilt sel dr b =>
    have hop : 0x18 ≤ (BitVec.ofNat 5 (0x18 + sel.toNat)).toNat := by
      rw [upperOp_toNat]
      omega
    have hgpr : dr.isGpr = true := hwf
    simp only [Half.drBits, Half.opBits, Half.opbBits]
    rw [decodeHalf_upper hop, upperOp_sel]
    simp [decodeReg_code, hgpr]

theorem decodeHalf_represents (dr : BitVec 4) (op b : BitVec 5) : (decodeHalf dr op b).Represents dr op b := by
  have hcode : (decodeReg dr).code.toNat = dr.toNat := by rw [code_decodeReg]
  by_cases hop : 0x18 ≤ op.toNat
  · have hopBits : 0x18 + (op.extractLsb' 0 3).toNat = op.toNat := by
      have := op.isLt
      rw [extractLsb'_toNat_eq_div_mod]
      omega
    rw [decodeHalf_upper hop]
    split
    case isTrue hgpr => exact ⟨hgpr, hcode, hopBits, rfl⟩
    case isFalse hgpr =>
      have hdr : ∀ r : BitVec 4, ¬(decodeReg r).isGpr = true → 14 + (r.getLsbD 0).toNat = r.toNat := by decide
      exact ⟨rfl, hdr dr hgpr, hopBits, rfl⟩
  · unfold decodeHalf
    split
    case h_23 hcase => exact ⟨rfl, hcode, hcase.symm, rfl⟩
    case h_24 hcase => exact ⟨rfl, hcode, hcase.symm, rfl⟩
    case h_25 =>
      simp only [imp_false] at *
      omega
    all_goals
      next hcase => exact ⟨rfl, hcode, hcase.symm, bits_decodeHalfB b⟩

theorem encodeVliw_of_halves {w : Word} (h31 : w.getLsbD 31 = true) {f g : Half}
    (hf : f.Represents (w.extractLsb' 27 4) (w.extractLsb' 22 5) (w.extractLsb' 14 5))
    (hg : g.Represents (w.extractLsb' 10 4) (w.extractLsb' 5 5) (w.extractLsb' 0 5)) :
    encodeVliw (w.getLsbD 21) (decodeCond2 (w.extractLsb' 19 2)) f g = w := by
  have hbit := getLsbD_toNat_eq_div_mod w 31
  have hw := w.isLt
  rw [h31, Bool.toNat_true] at hbit
  apply BitVec.eq_of_toNat_eq
  simp only [encodeVliw, BitVec.toNat_ofNat, hf.dr, hf.op, hf.opB, hg.dr, hg.op, hg.opB, code_decodeCond2,
    getLsbD_toNat_eq_div_mod, extractLsb'_toNat_eq_div_mod]
  omega

/-! ### From an instruction to its word and back -/

section
variable {op sel : Nat} {row : Reg → Cond → OpB → Instr} {groupRow : Bool → BitVec 22 → Instr}

theorem decode_encodeStd (hop : op < 32) (dr : Reg) (cnd : Cond) (b : OpB)
    (hrow : ∀ w, opcode w = op → inNoopSpace w = !dr.isGpr →
      decodeSingle w =
        row (decodeReg (w.extractLsb' 27 4)) (decodeCond (w.extractLsb' 19 3)) (decodeOpB (w.extractLsb' 0 19))) :
    decode (encodeStd op dr cnd b) = row dr cnd b := by
  obtain ⟨hcode, hdr, hcnd, hb⟩ := encodeStd_fields hop dr cnd b
  have hspace : inNoopSpace (encodeStd op dr cnd b) = !dr.isGpr := by
    rw [← decodeReg_code dr, ← hdr, isGpr_decodeReg_eq_not_inNoopSpace, hdr, decodeReg_code, Bool.not_not]
  rw [decode_of_bit31_false (Laws.encodeStd_bit31 op dr cnd b hop), hrow _ hcode hspace, hdr, hcnd, hb, decodeReg_code,
    decodeCond_code, decodeOpB_bits]

theorem decode_encodeGroup (hsel : sel < 8) (bit27 : Bool) (payload : BitVec 22)
    (hrow : ∀ w, opcode w = 0x18 + sel → inNoopSpace w = true →
      decodeSingle w = groupRow (w.getLsbD 27) (w.extractLsb' 0 22)) :
    decode (encodeGroup sel bit27 payload) = groupRow bit27 payload := by
  obtain ⟨hcode, hspace, hbit, hpayload⟩ := encodeGroup_fields hsel bit27 payload
  rw [decode_of_bit31_false (Laws.encodeGroup_bit31 sel bit27 payload hsel), hrow _ hcode hspace, hbit, hpayload]

end

theorem decode_encodeLdi (dr : Reg) (imm : BitVec 23) : decode (encodeLdi dr imm) = .ldi dr imm := by
  obtain ⟨hcode, hdr, himm⟩ := encodeLdi_fields dr imm
  have hrow : ∀ w, opcode w = 0x16 ∨ opcode w = 0x17 →
      decodeSingle w = .ldi (decodeReg (w.extractLsb' 27 4)) (w.extractLsb' 0 23) := by
    rintro w (hop | hop)
    · simp only [decodeSingle, extractLsb'_toNat_eq_opcode, hop]
    · simp only [decodeSingle, extractLsb'_toNat_eq_opcode, hop]
  rw [decode_of_bit31_false (Laws.encodeLdi_bit31 dr imm), hrow _ hcode, hdr, himm, decodeReg_code]

theorem decode_encodeMov (dr : Reg) (cnd : Cond) (a : Bool) (br : Reg) (b : Bool) (imm : BitVec 13) :
    decode (encodeMov dr cnd a br b imm) = .mov dr cnd a br b imm := by
  obtain ⟨hcode, hdr, hcnd, ha, hbr, hb, himm⟩ := encodeMov_fields dr cnd a br b imm
  rw [decode_of_bit31_false (Laws.encodeMov_bit31 dr cnd a br b imm)]
  simp only [decodeSingle, extractLsb'_toNat_eq_opcode, hcode, hdr, hcnd, ha, hbr, hb, himm, decodeReg_code, decodeCond_code]

theorem decode_encodeVliw (c2 : Bool) (cnd : Cond2) {f g : Half} (hf : f.wellFormed = true) (hg : g.wellFormed = true) :
    decode (encodeVliw c2 cnd f g) = .vliw c2 cnd f g := by
  obtain ⟨hc2, hcnd, hfdr, hfop, hfb, hgdr, hgop, hgb⟩ := encodeVliw_fields c2 cnd f g
  rw [decode, if_pos (Laws.encodeVliw_bit31 c2 cnd f g), decodeVliw, hc2, hcnd, hfdr, hfop, hfb, hgdr, hgop, hgb,
    decodeCond2_code, decodeHalf_fields hf, decodeHalf_fields hg]

theorem decode_encode {i : Instr} (hwf : i.wellFormed = true) : decode (encode i) = i := by
  cases i with
  | vliw c2 cnd f g =>
    obtain ⟨hf, hg⟩ := Bool.and_eq_true_iff.mp hwf
    exact decode_encodeVliw c2 cnd hf hg
  | ldi dr imm => exact decode_encodeLdi dr imm
  | mov dr cnd a br b imm => exact decode_encodeMov dr cnd a br b imm
  | noop bit27 payload | brk bit27 payload | lock bit27 payload | illegalNoopgrp3 bit27 payload
  | illegalNoopgrp4 bit27 payload | illegalNoopgrp5 bit27 payload | illegalNoopgrp6 bit27 payload
  | illegalNoopgrp7 bit27 payload =>
    exact decode_encodeGroup (by decide) bit27 payload fun w hop hspace => by
      simp only [decodeSingle, extractLsb'_toNat_eq_opcode, hop, hspace, if_true]
  | sub dr cnd b | and dr cnd b | add dr cnd b | or dr cnd b | xor dr cnd b | lsr dr cnd b | lsl dr cnd b | asr dr cnd b
  | mpy dr cnd b | ldilo dr cnd b | mpyuhi dr cnd b | mpyshi dr cnd b | brev dr cnd b | popc dr cnd b | rol dr cnd b
  | cmp dr cnd b | tst dr cnd b | lod dr cnd b | sto dr cnd b | divu dr cnd b | divs dr cnd b =>
    exact decode_encodeStd (by decide) dr cnd b fun w hop _ => by simp only [decodeSingle, extractLsb'_toNat_eq_opcode, hop]
  | fpadd dr cnd b | fpsub dr cnd b | fpmpy dr cnd b | fpdiv dr cnd b | fpi2f dr cnd b | fpf2i dr cnd b
  | reserved1e dr cnd b | reserved1f dr cnd b =>
    have hgpr : dr.isGpr = true := hwf
    exact decode_encodeStd (by decide) dr cnd b fun w hop hspace => by
      simp only [decodeSingle, extractLsb'_toNat_eq_opcode, hop, hspace, hgpr, Bool.not_true, Bool.false_eq_true, if_false]

/-! ### From a word to its instruction and back -/

/-- A well-formed instruction, and the word it stands for (30_encoding.md R110). -/
structure Instr.Represents (i : Instr) (w : Word) : Prop where
  wellFormed : i.wellFormed = true
  encode : encode i = w

/-- An opcode from 5'h18 on names two rows, one of the NOOP group and one of no build (30_encoding.md R107, R202). -/
theorem represents_upperRow {w : Word} (h31 : w.getLsbD 31 = false) {op : Nat} (hop : opcode w = op)
    (hupper : 0x18 ≤ op) {group unbuilt : Instr}
    (hgroup : group.Represents (encodeGroup (op - 0x18) (w.getLsbD 27) (w.extractLsb' 0 22)))
    (hwf : unbuilt.wellFormed = (decodeReg (w.extractLsb' 27 4)).isGpr)
    (hunbuilt : encode unbuilt = encodeStd op (decodeReg (w.extractLsb' 27 4))
      (decodeCond (w.extractLsb' 19 3)) (decodeOpB (w.extractLsb' 0 19))) :
    (if inNoopSpace w then group else unbuilt).Represents w := by
  cases hspace : inNoopSpace w with
  | true => exact ⟨hgroup.wellFormed, hgroup.encode.trans (encodeGroup_of_fields h31 hop hupper hspace)⟩
  | false =>
    refine ⟨hwf.trans ?_, hunbuilt.trans (encodeStd_of_fields h31 hop)⟩
    rw [isGpr_decodeReg_eq_not_inNoopSpace, hspace, Bool.not_false]

theorem decodeSingle_represents {w : Word} (h31 : w.getLsbD 31 = false) : (decodeSingle w).Represents w := by
  have hlt := opcode_lt w
  unfold decodeSingle
  simp only [extractLsb'_toNat_eq_opcode]
  split
  case h_16 hop => exact ⟨rfl, encodeMov_of_fields h31 hop⟩
  case h_23 hop => exact ⟨rfl, encodeLdi_of_fields h31 (.inl hop)⟩
  case h_24 hop => exact ⟨rfl, encodeLdi_of_fields h31 (.inr hop)⟩
  case h_25 hop | h_26 hop | h_27 hop | h_28 hop | h_29 hop | h_30 hop | h_31 hop =>
    exact represents_upperRow h31 hop (by decide) ⟨rfl, rfl⟩ rfl rfl
  case h_32 =>
    have hop : opcode w = 0x1f := by
      simp only [imp_false] at *
      omega
    exact represents_upperRow h31 hop (by decide) ⟨rfl, rfl⟩ rfl rfl
  all_goals
    next hop => exact ⟨rfl, encodeStd_of_fields h31 hop⟩

theorem decodeVliw_represents {w : Word} (h31 : w.getLsbD 31 = true) : (decodeVliw w).Represents w := by
  have hf := decodeHalf_represents (w.extractLsb' 27 4) (w.extractLsb' 22 5) (w.extractLsb' 14 5)
  have hg := decodeHalf_represents (w.extractLsb' 10 4) (w.extractLsb' 5 5) (w.extractLsb' 0 5)
  exact ⟨Bool.and_eq_true_iff.mpr ⟨hf.wellFormed, hg.wellFormed⟩, encodeVliw_of_halves h31 hf hg⟩

theorem decode_represents (w : Word) : (decode w).Represents w := by
  unfold decode
  split
  case isTrue h31 => exact decodeVliw_represents h31
  case isFalse h31 => exact decodeSingle_represents (Bool.eq_false_of_not_eq_true h31)

end Sys2Proof

namespace Sys2Proof.Proofs

open Sys2Proof Sys2Proof.Machine Sys2Proof.Says

/-- Settles O1: each format's fields are read back from its word, and the opcode and the NOOP group's space choose the row. -/
theorem decodeOfEncode : Obligations.DecodeOfEncode := fun _ => decode_encode

/-- Settles O2: every opcode has a row, and in each format a word is the encoding of its own fields. -/
theorem encodeOfDecode : Obligations.EncodeOfDecode := fun w => ⟨(decode_represents w).wellFormed, (decode_represents w).encode⟩

end Sys2Proof.Proofs
end

section
/-! ## Units that are not built

A word whose unit the build lacks is illegal before its condition is looked at (30_encoding.md R114). -/

namespace Sys2Proof.Machine

open Sys2Proof Sys2Proof.Says

variable {s : State}

theorem State.runWord_unbuilt {legal : Bool} (hl : legal = false) (cnd : Cond) (body : Ctx → State → Ran) :
    (.next (s.runWord legal cnd body) : Host.Outcome State Fault Refusal) = .next (illegalEntry s) := by
  rw [hl, State.runWord_illegal, State.takeException_illegal]

theorem exec_multiply_unbuilt (hb : s.cfg.implementMpy = 0) (dr : Reg) (cnd : Cond) (b : OpB) :
    ∀ mk ∈ multiplyRows, exec (mk dr cnd b) s = .next (illegalEntry s) := by
  have hl : s.hasMultiply = false := by simp [State.hasMultiply, hb]
  simp only [multiplyRows, List.forall_mem_cons, List.not_mem_nil, false_implies, implies_true, and_true]
  exact ⟨State.runWord_unbuilt hl cnd _, State.runWord_unbuilt hl cnd _, State.runWord_unbuilt hl cnd _⟩

theorem exec_divide_unbuilt (hb : s.cfg.implementDivide = false) (dr : Reg) (cnd : Cond) (b : OpB) :
    ∀ mk ∈ divideRows, exec (mk dr cnd b) s = .next (illegalEntry s) := by
  simp only [divideRows, List.forall_mem_cons, List.not_mem_nil, false_implies, implies_true, and_true]
  exact ⟨State.runWord_unbuilt hb cnd _, State.runWord_unbuilt hb cnd _⟩

theorem exec_lock_unbuilt (hb : s.cfg.implementLock = false ∨ s.cfg.pipelined = false) (bit27 : Bool) (payload : BitVec 22) :
    exec (.lock bit27 payload) s = .next (illegalEntry s) :=
  State.runWord_unbuilt (Bool.and_eq_false_iff.mpr hb) .always bodyLock

theorem exec_vliw_unbuilt (hb : s.cfg.optVliw = false) (c2 : Bool) (cnd : Cond2) (f g : Half) :
    exec (.vliw c2 cnd f g) s = .next (illegalEntry s) := by
  have hexec : exec (.vliw c2 cnd f g) s = .next (s.takeException .illegal s.active.pc false) := by
    simp [exec, execVliw, hb]
  rw [hexec, State.takeException_illegal]

end Sys2Proof.Machine

namespace Sys2Proof.Proofs

open Sys2Proof Sys2Proof.Machine Sys2Proof.Says

/-- Settles O23: the legality of each of these words is its unit's, and decides before the condition. -/
theorem unbuiltUnitsAreIllegal : Obligations.UnbuiltUnitsAreIllegal :=
  ⟨fun _ dr cnd b hb => exec_multiply_unbuilt hb dr cnd b, fun _ dr cnd b hb => exec_divide_unbuilt hb dr cnd b,
    fun _ bit27 payload hb => exec_lock_unbuilt hb bit27 payload, fun _ c2 cnd f g hb => exec_vliw_unbuilt hb c2 cnd f g⟩

end Sys2Proof.Proofs
end

section
/-! ## Standard words under a condition (40_execution_common.md R144; 30_encoding.md R114)

A standard operation needs at most one unit of the build; its word takes IllegalInstruction without it, else runs its body under
the condition. -/

namespace Sys2Proof.Machine

open Sys2Proof Sys2Proof.Says

/-- Whether the build has what a standard operation needs. -/
def State.stdBuilt (s : State) (op : StdOp) : Bool :=
  match op with
  | .mpy | .mpyuhi | .mpyshi => s.hasMultiply
  | .divu | .divs => s.cfg.implementDivide
  | _ => true

/-- The standard operations that need no unit. -/
def unitlessOps : List StdOp :=
  [.sub, .and, .add, .or, .xor, .lsr, .lsl, .asr, .ldilo, .brev, .popc, .rol, .cmp, .tst, .lod, .sto]

variable {s : State} {cnd : Cond}

theorem State.halfLegal_std (s : State) (op : StdOp) (dr : Reg) (b : HalfB) :
    s.halfLegal (.std op dr b) = s.stdBuilt op := by
  cases op <;> rfl

/-- The word of a standard operation is its body, run if the build has its unit and the condition holds. -/
theorem exec_stdInstr (s : State) (op : StdOp) (dr : Reg) (cnd : Cond) (b : OpB) :
    exec (stdInstr op dr cnd b) s =
      .next (s.runWord (s.stdBuilt op) cnd fun ctx t => bodyStd op dr (t.opB b) ctx t) := by
  cases op <;> rfl

theorem stdBuilt_of_unitless {op : StdOp} (h : op ∈ unitlessOps) : s.stdBuilt op = true := by
  cases op with
  | mpy | mpyuhi | mpyshi | divu | divs => exact absurd h (by decide)
  | _ => rfl

/-- A legal word whose condition is false only advances the PC. -/
theorem State.runWord_false {legal : Bool} (hl : legal = true) (hc : condHolds cnd (own s).flags = false)
    (body : Ctx → State → Ran) :
    (.next (s.runWord legal cnd body) : Host.Outcome State Fault Refusal) = .next (passed s) := by
  rw [hl, s.runWord_skipped body hc]
  rfl

theorem exec_rows_false {ops : List StdOp} (hc : condHolds cnd (own s).flags = false)
    (hbuilt : ∀ op ∈ ops, s.stdBuilt op = true) (dr : Reg) (b : OpB) :
    ∀ mk ∈ ops.map stdInstr, exec (mk dr cnd b) s = .next (passed s) := by
  intro mk hmk
  obtain ⟨op, hop, rfl⟩ := List.mem_map.mp hmk
  rw [exec_stdInstr, State.runWord_false (hbuilt op hop) hc]

theorem exec_conditional_false (hc : condHolds cnd (own s).flags = false) (dr : Reg) (b : OpB) :
    ∀ mk ∈ conditionalRows, exec (mk dr cnd b) s = .next (passed s) :=
  exec_rows_false (ops := unitlessOps) hc (fun _ => stdBuilt_of_unitless) dr b

theorem exec_multiply_false (hc : condHolds cnd (own s).flags = false) (hb : s.cfg.implementMpy ≠ 0) (dr : Reg) (b : OpB) :
    ∀ mk ∈ multiplyRows, exec (mk dr cnd b) s = .next (passed s) :=
  have hbuilt : s.hasMultiply = true := bne_iff_ne.mpr hb
  exec_rows_false (ops := [.mpy, .mpyuhi, .mpyshi]) hc (by simpa [State.stdBuilt] using hbuilt) dr b

theorem exec_divide_false (hc : condHolds cnd (own s).flags = false) (hb : s.cfg.implementDivide = true) (dr : Reg)
    (b : OpB) : ∀ mk ∈ divideRows, exec (mk dr cnd b) s = .next (passed s) :=
  exec_rows_false (ops := [.divu, .divs]) hc (by simpa [State.stdBuilt] using hb) dr b

/-- No build has the floating-point and reserved rows (46_floating_point.md R200, R201). -/
theorem exec_unbuiltRows (s : State) (dr : Reg) (cnd : Cond) (b : OpB) :
    ∀ mk ∈ unbuiltRows, exec (mk dr cnd b) s = .next (illegalEntry s) := by
  have hundefined : (.next s.undefinedHere : Host.Outcome State Fault Refusal) = .next (illegalEntry s) :=
    congrArg _ s.takeException_illegal
  simp only [unbuiltRows, List.forall_mem_cons, List.not_mem_nil, false_implies, implies_true, and_true]
  exact ⟨hundefined, hundefined, hundefined, hundefined, hundefined, hundefined, hundefined, hundefined⟩

end Sys2Proof.Machine

namespace Sys2Proof.Proofs

open Sys2Proof Sys2Proof.Machine Sys2Proof.Says

/-- Settles O5: legality is looked at before the condition, and a false condition before the body. -/
theorem falseConditionOnlyAdvances : Obligations.FalseConditionOnlyAdvances := fun s dr cnd b hc =>
  ⟨exec_conditional_false hc dr b, fun hb => exec_multiply_false hc hb dr b, fun hb => exec_divide_false hc hb dr b,
    fun _ _ _ _ => State.runWord_false rfl hc _, exec_unbuiltRows s dr cnd b,
    fun hb => exec_multiply_unbuilt hb dr cnd b, fun hb => exec_divide_unbuilt hb dr cnd b⟩

end Sys2Proof.Proofs
end

section
/-! ## Words without a condition field (42_move_ldi.md R181; 45_noop_break_lock.md R195 to R197) -/

namespace Sys2Proof.Machine

open Sys2Proof Sys2Proof.Says

variable {s : State}

theorem own_withOwn (s : State) (rs : RegSet) : own (withOwn s rs) = rs := s.active_withActive rs

theorem exec_ldi_gpr (s : State) (n : Fin 14) (imm : BitVec 23) :
    exec (.ldi (.gpr n) imm) s = .next (wrote s n (imm.signExtend 32) (own s).flags) :=
  congrArg Host.Outcome.next (s.writeReg_gpr_advance n _)

theorem exec_noop (s : State) (bit27 : Bool) (payload : BitVec 22) : exec (.noop bit27 payload) s = .next (passed s) := rfl

theorem exec_lock_built (hl : s.cfg.implementLock = true) (hp : s.cfg.pipelined = true) (bit27 : Bool)
    (payload : BitVec 22) : exec (.lock bit27 payload) s = .next { passed s with lockLeft := 3 } := by
  have hbuilt : s.hasLock = true := by simp [State.hasLock, hl, hp]
  show Host.Outcome.next (s.runWord s.hasLock .always bodyLock) = _
  rw [hbuilt]
  rfl

/-- BREAK goes to the supervisor with UBREAK from user mode where BREAK_EN is clear, and halts else. -/
theorem exec_brk_effect (s : State) (bit27 : Bool) (payload : BitVec 22) :
    ∃ u, exec (.brk bit27 payload) s = .next u ∧
      if s.gie && !s.breakEn then u.ubreak = true ∧ u.gie = false else u.halted = true := by
  refine ⟨_, rfl, ?_⟩
  cases hg : s.gie with
  | false =>
    rw [s.takeException_supervisor _ _ _ hg]
    rfl
  | true =>
    rw [s.takeException_break_user _ _ hg]
    cases s.breakEn with
    | false => exact ⟨rfl, rfl⟩
    | true => rfl

end Sys2Proof.Machine
end

section
/-! ## What the conditions say after CMP (40_execution_common.md R143; 41_alu.md R172) -/

namespace Sys2Proof.Machine

open Sys2Proof Sys2Proof.Says

/-- Where the subtraction does not overflow, the difference of the words is that of the signed numbers. -/
theorem toInt_sub_of_no_overflow {a b : Word} (h : (subResult a b).flags.v = false) :
    (a - b).toInt = a.toInt - b.toInt := by
  simp only [subResult, resultFlags, Bool.and_eq_false_iff, bne_eq_false_iff_eq, BitVec.msb_eq_toInt,
    decide_eq_decide] at h
  have ha := a.toInt_lt
  have ha' := a.le_toInt
  have hb := b.toInt_lt
  have hb' := b.le_toInt
  rw [BitVec.toInt_sub, Int.bmod] at h ⊢
  omega

section
variable (a b : Word)

theorem subResult_z : (subResult a b).flags.z = true ↔ a = b := by
  have hdiff : a - b = 0#32 ↔ a = b := sub_eq_zero
  simpa [subResult, resultFlags] using hdiff

theorem subResult_c : (subResult a b).flags.c = true ↔ a.toNat < b.toNat := by
  simp [subResult, resultFlags, BitVec.ult]

theorem subResult_n : (subResult a b).flags.n = true ↔ (a - b).toInt < 0 := by
  simp [subResult, resultFlags, BitVec.msb_eq_toInt]

variable {a b} (hv : (subResult a b).flags.v = false)
include hv

theorem condHolds_lt_subResult : condHolds .lt (subResult a b).flags = true ↔ a.toInt < b.toInt := by
  show (subResult a b).flags.n = true ↔ _
  rw [subResult_n, toInt_sub_of_no_overflow hv]
  omega

theorem condHolds_ge_subResult : condHolds .ge (subResult a b).flags = true ↔ b.toInt ≤ a.toInt := by
  show (!(subResult a b).flags.n) = true ↔ _
  rw [Bool.not_eq_true', ← Bool.not_eq_true]
  exact (not_congr (condHolds_lt_subResult hv)).trans Int.not_lt

theorem condHolds_gt_subResult : condHolds .gt (subResult a b).flags = true ↔ b.toInt < a.toInt := by
  have hge := condHolds_ge_subResult hv
  have hne : (!(subResult a b).flags.z) = true ↔ a.toInt ≠ b.toInt := by
    rw [Bool.not_eq_true', ← Bool.not_eq_true, subResult_z, ne_eq, BitVec.toInt_inj]
  show (!(subResult a b).flags.n && !(subResult a b).flags.z) = true ↔ _
  rw [Bool.and_eq_true, hne, show (!(subResult a b).flags.n) = true ↔ _ from hge]
  omega

end

/-- CMP that executes leaves the flags of the difference. -/
theorem exec_cmp (s : State) (dr : Reg) {cnd : Cond} (b : OpB) (hc : condHolds cnd (own s).flags = true) :
    ∃ t, exec (.cmp dr cnd b) s = .next t ∧ (own t).flags = (subResult (regValue s dr) (operandB s b)).flags := by
  refine ⟨s.advance.setFlags (subResult (s.advance.readReg dr) (s.advance.opB b)).flags,
    congrArg Host.Outcome.next (s.runWord_executed _ hc), ?_⟩
  rw [s.readReg_advance, s.opB_advance]
  exact congrArg RegSet.flags (s.advance.active_withActive _)

end Sys2Proof.Machine

namespace Sys2Proof.Proofs

open Sys2Proof Sys2Proof.Machine Sys2Proof.Says

/-- Settles O4: after CMP the signed order is the sign of a difference that did not overflow. -/
theorem conditionsAfterCompare : Obligations.ConditionsAfterCompare := by
  refine ⟨fun f => ⟨rfl, rfl, rfl, rfl, rfl, rfl, rfl, rfl⟩, ?_, ?_⟩
  · intro s f imm bit27 payload t ht
    have hf : (own t).flags = f := by rw [ht, own_withOwn]
    exact ⟨hf ▸ exec_ldi_gpr t 0 imm, exec_noop t bit27 payload, exec_brk_effect t bit27 payload,
      fun hl hp => ⟨_, exec_lock_built hl hp bit27 payload, Nat.succ_ne_zero 2⟩⟩
  · intro s dr cnd b hc
    obtain ⟨t, he, hf⟩ := exec_cmp s dr b hc
    refine ⟨t, he, ?_⟩
    rw [hf]
    have hz := subResult_z (regValue s dr) (operandB s b)
    have hnz : condHolds .nz (subResult (regValue s dr) (operandB s b)).flags = true ↔ regValue s dr ≠ operandB s b := by
      simp [condHolds, ← hz]
    exact ⟨hz, hnz, subResult_c _ _, fun hv =>
      ⟨condHolds_lt_subResult hv, condHolds_ge_subResult hv, condHolds_gt_subResult hv⟩⟩

end Sys2Proof.Proofs
end

section
/-! ## The step and the decoded instruction (40_execution_common.md R140) -/

namespace Sys2Proof.Machine

open Sys2Proof Sys2Proof.Says

variable {s q r u : State} {w : Word}

/-- With no store in flight, or where nothing halts, there is nothing to wait for. -/
theorem State.landBeforeHalt_direct {run : State → Host.Outcome State Fault Refusal}
    (h : s.posted = none ∨ ∀ u, run s = .next u → u.halted = false) : s.landBeforeHalt run = run s := by
  rcases h with hp | hruns
  · rcases s.landBeforeHalt_cases run with ⟨_, hl⟩ | ⟨hn, _⟩ | ⟨hn, _⟩
    · exact hl
    · exact absurd hp hn
    · exact absurd hp hn
  · exact State.landBeforeHalt_runs hruns

theorem issued_posted (q : State) (w : Word) : (issued q w).posted = q.posted := by
  obtain ⟨m, p, d, l, hi⟩ := q.countEvents_masters q.gie 0 0 (issues w)
  rw [issued, hi]

theorem State.runOne_fetched (h : s.fetch = (some w, q)) :
    s.runOne = (issued q w).landBeforeHalt (State.perform (decode w)) := by
  simp only [State.runOne, h, issued]

/-- The rest of the step once the word comes to an instruction performed at `r`. -/
theorem State.cpu_performed {i : Instr} (h : Executing s) (hr : s.runOne = State.perform i r) :
    s.cpu false = concluded s.gie i (exec i r) := by
  have ⟨hh, he, hs, hi⟩ := h
  have hno : s.takesInterrupt = false := hi
  unfold State.perform at hr
  cases hx : exec i r with
  | next u =>
    rw [hx] at hr
    exact State.cpu_executing h hr
  | fault f =>
    rw [hx] at hr
    simp [State.cpu, hh, he, hs, hno, hr, concluded]
  | refused f =>
    rw [hx] at hr
    simp [State.cpu, hh, he, hs, hno, hr, concluded]

section
variable (hn : Undisturbed s) (he : Executing (ready s)) (hf : (ready s).fetch = (some w, q))
include hn he hf

theorem step_runs_at_once
    (h : q.posted = none ∨ ∀ u, exec (decode w) (issued q w) = .next u → u.halted = false) :
    step s = concluded (ready s).gie (decode w) (exec (decode w) (issued q w)) := by
  have hdirect : (issued q w).posted = none ∨
      ∀ u, State.perform (decode w) (issued q w) = .next u → u.halted = false := by
    refine h.imp (issued_posted q w).trans fun h u hu => ?_
    obtain ⟨v, hv, rfl⟩ := State.perform_next.mp hu
    exact h v hv
  rw [step_undisturbed hn,
    State.cpu_performed he ((State.runOne_fetched hf).trans (State.landBeforeHalt_direct hdirect))]

variable (hu : exec (decode w) (issued q w) = .next u) (hh : u.halted = true)
include hu hh

/-- An instruction that would halt runs where the store in flight has landed. -/
theorem step_runs_landed (hd : (issued q w).drainPosted = (true, r)) :
    step s = concluded (ready s).gie (decode w) (exec (decode w) r) := by
  have hrun := State.landBeforeHalt_landed (State.perform_next.mpr ⟨u, hu, rfl⟩) hh hd
  rw [step_undisturbed hn, State.cpu_performed he ((State.runOne_fetched hf).trans hrun)]

/-- Or the store errs, and its error comes in place of the instruction. -/
theorem step_store_erred (hd : (issued q w).drainPosted = (false, r)) : step s = .next (storeErrorEntry r) := by
  have hrun := State.landBeforeHalt_erred (State.perform_next.mpr ⟨u, hu, rfl⟩) hh hd
  have hsettled : (storeErrorEntry r).posted = none := by
    simpa [storeErrorEntry_posted, hd] using (issued q w).drainPosted_posted
  rw [step_to_supervisor hn he ((State.runOne_fetched hf).trans hrun) (storeErrorEntry_gie r),
    State.settleStore_none _ hsettled]

end

end Sys2Proof.Machine

namespace Sys2Proof.Proofs

open Sys2Proof Sys2Proof.Machine Sys2Proof.Says

/-- Settles O6: whether the store in flight has to land first, and whether it does, decides what the step is. -/
theorem stepRunsTheDecodedInstruction : Obligations.StepRunsTheDecodedInstruction := fun _ _ _ hn he hf =>
  ⟨step_runs_at_once hn he hf, fun _ _ hu hh =>
    ⟨fun _ => step_runs_landed hn he hf hu hh, fun _ => step_store_erred hn he hf hu hh⟩⟩

end Sys2Proof.Proofs
end

section
/-! ## Standard words that execute (40_execution_common.md R145 to R148)

An ALU word reads `Ra` and operand B where the PC has advanced and writes its result back there. -/

namespace Sys2Proof.Machine

open Sys2Proof Sys2Proof.Says

variable {s : State}

/-- A built standard word whose condition holds runs its body past the instruction, on the operands of its own address. -/
theorem exec_std_executed {op : StdOp} {cnd : Cond} (hb : s.stdBuilt op = true) (hc : condHolds cnd (own s).flags = true)
    (dr : Reg) (b : OpB) : exec (stdInstr op dr cnd b) s =
      .next (bodyStd op dr (operandB s b) ⟨(own s).pc, .whole, decide (cnd ≠ .always)⟩ (passed s)).state := by
  rw [exec_stdInstr, hb, s.runWord_executed _ hc, s.opB_advance]
  rfl

theorem readReg_passed (s : State) (r : Reg) : (passed s).readReg r = regValue s r := s.readReg_advance r

theorem writeReg_gpr_passed (s : State) (n : Fin 14) (v : Word) :
    (passed s).writeReg (.gpr n) v = wrote s n v (own s).flags := s.writeReg_gpr_advance n v

/-- A jump leaves nothing of the PC's advance. -/
theorem writeReg_pc_passed (s : State) (v : Word) : (passed s).writeReg .pc v = moved s v := by
  cases hg : s.gie <;>
    simp [State.writeReg, State.writePc, passed, moved, withOwn, own, State.withSet, State.set, hg]

theorem setFlags_passed (s : State) (f : Flags) :
    (passed s).setFlags f = withOwn s { own s with pc := (own s).pc + 1#32, flags := f } := by
  cases hg : s.gie <;>
    simp [State.setFlags, State.withActive, State.active, passed, moved, withOwn, own, State.withSet, State.set, hg]

theorem finish_gpr_passed (s : State) (conditional : Bool) (n : Fin 14) (r : AluResult) :
    (passed s).finish conditional (.gpr n) r = wrote s n r.res (if conditional then (own s).flags else r.flags) := by
  rw [State.finish_gpr]
  cases hg : s.gie <;>
    simp [State.withActive, State.active, passed, moved, wrote, withOwn, own, State.withSet, State.set, hg]

section
variable {op : StdOp} {ok : State → Prop} (hbuilt : ∀ s, ok s → s.stdBuilt op = true)
include hbuilt

/-- An operation that finishes with a result and the flags that go with it. -/
theorem computes_of_finish {result : Word → Word → AluResult} {res : Word → Word → Word} {fl : Word → Word → Flags}
    (hbody : ∀ dr b ctx t, bodyStd op dr b ctx t = .done (t.finish ctx.conditional dr (result (t.readReg dr) b)))
    (hresult : ∀ a b, result a b = ⟨res a b, fl a b⟩) :
    Computes (stdInstr op) ok res fun a b _ => fl a b := by
  intro s cnd b hok hc
  have hexec := fun dr => exec_std_executed (hbuilt s hok) hc dr b
  simp only [hbody, Ran.state, readReg_passed, hresult] at hexec
  refine ⟨fun n => ?_, ?_, ?_⟩
  · rw [hexec, finish_gpr_passed]
    by_cases hcnd : cnd = .always <;> simp [hcnd, regValue]
  · rw [hexec, State.finish_other _ _ _ rfl, writeReg_pc_passed]
    rfl
  · rw [hexec, State.finish_other _ _ _ rfl]
    rfl

/-- An operation that writes its result back and sets no flags. -/
theorem computes_of_writeReg {res : Word → Word → Word}
    (hbody : ∀ dr b ctx t, bodyStd op dr b ctx t = .done (t.writeReg dr (res (t.readReg dr) b))) :
    Computes (stdInstr op) ok res keep := by
  intro s cnd b hok hc
  have hexec := fun dr => exec_std_executed (hbuilt s hok) hc dr b
  simp only [hbody, Ran.state, readReg_passed] at hexec
  refine ⟨fun n => ?_, ?_, hexec .cc⟩
  · rw [hexec, writeReg_gpr_passed, keep, ite_self]
    rfl
  · rw [hexec, writeReg_pc_passed]
    rfl

end

/-- An operation that sets the flags that go with a result, and does not write the result back. -/
theorem compares_of_setFlags {op : StdOp} (hop : op ∈ unitlessOps) {result : Word → Word → AluResult}
    {res : Word → Word → Word} {fl : Word → Word → Flags}
    (hbody : ∀ dr b ctx t, bodyStd op dr b ctx t = .done (t.setFlags (result (t.readReg dr) b).flags))
    (hresult : ∀ a b, result a b = ⟨res a b, fl a b⟩) : Compares (stdInstr op) fl := by
  intro s dr cnd b hc
  rw [exec_std_executed (stdBuilt_of_unitless hop) hc, hbody, Ran.state, readReg_passed, hresult, setFlags_passed]

end Sys2Proof.Machine
end

section
/-! ## Results and flags of the ALU (41_alu.md R160 to R173), in the statements' terms -/

namespace Sys2Proof.Machine

open Sys2Proof Sys2Proof.Says

theorem resultFlags_eq_zn (res : Word) (c v : Bool) : resultFlags res c v = zn res c v := by
  rw [resultFlags, zn, BitVec.msb_eq_getLsbD_last]
  rfl

theorem logicResult_eq (res : Word) : logicResult res = ⟨res, zn res false false⟩ := by
  rw [logicResult, resultFlags_eq_zn]

theorem subResult_eq (a b : Word) : subResult a b = ⟨a - b, zn (a - b) (decide (a.toNat < b.toNat))
    (a.getLsbD 31 != b.getLsbD 31 && (a - b).getLsbD 31 != a.getLsbD 31)⟩ := by
  simp [subResult, resultFlags_eq_zn, BitVec.msb_eq_getLsbD_last, BitVec.ult]

theorem addResult_eq (a b : Word) : addResult a b = ⟨a + b, zn (a + b) (decide (2 ^ 32 ≤ a.toNat + b.toNat))
    (a.getLsbD 31 == b.getLsbD 31 && (a + b).getLsbD 31 != a.getLsbD 31)⟩ := by
  simp [addResult, resultFlags_eq_zn, BitVec.msb_eq_getLsbD_last]

/-! ### Shifts -/

theorem ofNat_div_eq_ushiftRight (a : Word) (n : Nat) : BitVec.ofNat 32 (a.toNat / 2 ^ n) = a >>> n :=
  BitVec.eq_of_toNat_eq (by
    rw [BitVec.toNat_ushiftRight, Nat.shiftRight_eq_div_pow, BitVec.toNat_ofNat,
      Nat.mod_eq_of_lt ((Nat.div_le_self _ _).trans_lt a.isLt)])

theorem ofNat_mul_eq_shiftLeft (a : Word) (n : Nat) : BitVec.ofNat 32 (a.toNat * 2 ^ n) = a <<< n :=
  BitVec.eq_of_toNat_eq (by rw [BitVec.toNat_shiftLeft, Nat.shiftLeft_eq, BitVec.toNat_ofNat])

theorem ofInt_div_eq_sshiftRight (a : Word) (n : Nat) : BitVec.ofInt 32 (a.toInt / 2 ^ n) = a.sshiftRight n := by
  rw [BitVec.sshiftRight, Int.shiftRight_eq_div_pow]
  norm_cast

theorem ushiftRight_width (a : Word) : a >>> 32 = 0#32 := BitVec.ushiftRight_eq_zero (Nat.le_refl 32)

/-- An arithmetic shift by the width leaves the sign in every bit. -/
theorem sshiftRight_width (a : Word) : a.sshiftRight 32 = signWord a := by
  ext i hi
  cases hs : a.msb with
  | true =>
    have hones : (0xffffffff#32)[i] = true := BitVec.getElem_allOnes i hi
    simp [BitVec.getElem_sshiftRight, signWord, hs, hones]
  | false => simp [BitVec.getElem_sshiftRight, signWord, hs]

/-- The counts a shift tells apart. -/
theorem shiftCount_cases (n : Nat) : n = 0 ∨ (n ≠ 0 ∧ n < 32) ∨ n = 32 ∨ 32 < n := by omega

theorem lsrResult_eq (a b : Word) : lsrResult a b = ⟨a >>> min b.toNat 32, zn (a >>> min b.toNat 32)
    (decide (b.toNat ≠ 0) && decide (b.toNat ≤ 32) && a.getLsbD (b.toNat - 1)) (decide (b.toNat ≠ 0) && a.getLsbD 31)⟩ := by
  simp only [lsrResult, resultFlags_eq_zn, lastOutRight, BitVec.msb_eq_getLsbD_last]
  rcases shiftCount_cases b.toNat with h | ⟨h0, hlt⟩ | h | hgt
  · simp [h]
  · have htop : a.getLsbD (b.toNat + 31) = false := a.getLsbD_of_ge _ (by omega)
    simp [h0, hlt, hlt.le, htop]
  · simp [h, ushiftRight_width]
  · simp [hgt.ne', hgt.not_gt, hgt.le, hgt.not_ge, (Nat.zero_lt_of_lt hgt).ne', ushiftRight_width]

theorem lslResult_eq (a b : Word) : lslResult a b = ⟨a <<< min b.toNat 32, zn (a <<< min b.toNat 32)
    (decide (b.toNat ≠ 0) && decide (b.toNat ≤ 32) && a.getLsbD (32 - b.toNat))
    ((a <<< min b.toNat 32).getLsbD 31 != a.getLsbD 31)⟩ := by
  simp only [lslResult, resultFlags_eq_zn, BitVec.msb_eq_getLsbD_last]
  rcases shiftCount_cases b.toNat with h | ⟨h0, hlt⟩ | h | hgt
  · simp [h]
  · simp [h0, hlt, hlt.le]
  · simp [h]
  · simp [hgt.ne', hgt.not_gt, hgt.le, hgt.not_ge, (Nat.zero_lt_of_lt hgt).ne']

theorem asrResult_eq (a b : Word) : asrResult a b = ⟨a.sshiftRight (min b.toNat 32), zn (a.sshiftRight (min b.toNat 32))
    (decide (b.toNat ≠ 0) && a.getLsbD (min b.toNat 32 - 1)) false⟩ := by
  simp only [asrResult, resultFlags_eq_zn, lastOutRight, BitVec.msb_eq_getLsbD_last]
  rcases shiftCount_cases b.toNat with h | ⟨h0, hlt⟩ | h | hgt
  · simp [h]
  · simp [h0, hlt, hlt.le]
  · simp [h, sshiftRight_width]
  · simp [hgt.not_gt, hgt.le, (Nat.zero_lt_of_lt hgt).ne', sshiftRight_width]

/-! ### Population count, rotation, halves, reversal -/

theorem getLsbD_clearBit (w : Word) (k i : Nat) :
    (w &&& ~~~(1#32 <<< k)).getLsbD i = (w.getLsbD i && decide (i ≠ k)) := by
  rw [← BitVec.twoPow_eq, BitVec.getLsbD_and, BitVec.getLsbD_not, BitVec.getLsbD_twoPow]
  rcases Nat.lt_or_ge i 32 with hi | hi
  · by_cases h : i = k
    · simp [← h, hi]
    · simp [h, Ne.symm h, hi]
  · simp [w.getLsbD_of_ge i hi]

/-- Clearing a bit that is 1 takes one from the count of the bits above it, and nothing from that of the bits below. -/
theorem onesBelow_clearBit {w : Word} {k : Nat} (hk : w.getLsbD k = true) (n : Nat) :
    onesBelow w n = onesBelow (w &&& ~~~(1#32 <<< k)) n + (decide (k < n)).toNat := by
  induction n with
  | zero => rfl
  | succ n ih =>
    rw [onesBelow, onesBelow, ih, getLsbD_clearBit]
    rcases Nat.lt_trichotomy k n with h | rfl | h
    · simp [h, h.ne', Nat.lt_succ_of_lt h]
      omega
    · simp [hk]
    · simpa [h.ne, h.not_gt] using h

theorem onesBelow_zero (n : Nat) : onesBelow 0#32 n = 0 := by
  induction n with
  | zero => rfl
  | succ n ih => simp [onesBelow, ih]

theorem getLsbD_rolResult (a b : Word) {i : Nat} (hi : i < 32) :
    (rolResult a b).res.getLsbD ((i + b.toNat) % 32) = a.getLsbD i := by
  show (a.rotateLeft (b.toNat % 32)).getLsbD _ = _
  have hr : b.toNat % 32 < 32 := Nat.mod_lt _ (by decide)
  rw [BitVec.getLsbD_rotateLeft_of_le hr, ← Nat.add_mod_mod]
  generalize b.toNat % 32 = r at hr ⊢
  rcases Nat.lt_or_ge (i + r) 32 with h | h
  · simp [Nat.mod_eq_of_lt h, h]
  · have hmod : (i + r) % 32 = i + r - 32 := by omega
    have hlt : i + r - 32 < r := by omega
    have hback : 32 - r + (i + r - 32) = i := by omega
    simp [hmod, hlt, hback]

theorem getLsbD_lowMask : ∀ i < 32, (0x0000ffff#32).getLsbD i = decide (i < 16) := by decide

theorem getLsbD_highMask : ∀ i < 32, (0xffff0000#32).getLsbD i = decide (16 ≤ i) := by decide

theorem getLsbD_lowReplaced (a b : Word) {i : Nat} (hi : i < 32) :
    (lowReplaced a b).getLsbD i = if i < 16 then b.getLsbD i else a.getLsbD i := by
  simp only [lowReplaced, BitVec.getLsbD_or, BitVec.getLsbD_and, getLsbD_lowMask i hi, getLsbD_highMask i hi]
  split
  · next h => simp [h, h.not_ge]
  · next h => simp [h, Nat.le_of_not_lt h]

theorem getLsbD_bitReversed (b : Word) {i : Nat} (hi : i < 32) : (bitReversed b).getLsbD i = b.getLsbD (31 - i) := by
  rw [bitReversed, BitVec.getLsbD_reverse, BitVec.getMsbD_eq_getLsbD, decide_eq_true hi, Bool.true_and]

end Sys2Proof.Machine

namespace Sys2Proof.Proofs

open Sys2Proof Sys2Proof.Machine Sys2Proof.Says

/-- Settles O8: SUB finishes with the difference and its borrow and overflow. -/
theorem subWritesTheDifference : Obligations.SubWritesTheDifference :=
  computes_of_finish (op := .sub) (fun _ _ => rfl) (fun _ _ _ _ => rfl) subResult_eq

/-- Settles O9: ADD finishes with the sum and its carry and overflow. -/
theorem addWritesTheSum : Obligations.AddWritesTheSum :=
  computes_of_finish (op := .add) (fun _ _ => rfl) (fun _ _ _ _ => rfl) addResult_eq

/-- Settles O10: the three finish with a result whose C and V are clear. -/
theorem logicWritesTheBitwiseResult : Obligations.LogicWritesTheBitwiseResult :=
  ⟨computes_of_finish (op := .and) (fun _ _ => rfl) (fun _ _ _ _ => rfl) fun a b => logicResult_eq (a &&& b),
    computes_of_finish (op := .or) (fun _ _ => rfl) (fun _ _ _ _ => rfl) fun a b => logicResult_eq (a ||| b),
    computes_of_finish (op := .xor) (fun _ _ => rfl) (fun _ _ _ _ => rfl) fun a b => logicResult_eq (a ^^^ b)⟩

/-- Settles O11: LSR is the shift by the count cut off at the width, and that shift is a division. -/
theorem lsrShiftsRightLogically : Obligations.LsrShiftsRightLogically := by
  unfold Obligations.LsrShiftsRightLogically
  simp only [ofNat_div_eq_ushiftRight]
  exact computes_of_finish (op := .lsr) (fun _ _ => rfl) (fun _ _ _ _ => rfl) lsrResult_eq

/-- Settles O12: LSL is the shift by the count cut off at the width, and that shift is a product. -/
theorem lslShiftsLeft : Obligations.LslShiftsLeft := by
  unfold Obligations.LslShiftsLeft
  simp only [ofNat_mul_eq_shiftLeft]
  exact computes_of_finish (op := .lsl) (fun _ _ => rfl) (fun _ _ _ _ => rfl) lslResult_eq

/-- Settles O13: ASR is the signed shift by the count cut off at the width, and that shift is a floor division. -/
theorem asrShiftsRightArithmetically : Obligations.AsrShiftsRightArithmetically := by
  unfold Obligations.AsrShiftsRightArithmetically
  simp only [ofInt_div_eq_sshiftRight]
  exact computes_of_finish (op := .asr) (fun _ _ => rfl) (fun _ _ _ _ => rfl) asrResult_eq

/-- Settles O14: the count over all 32 bits falls by one with each bit cleared. -/
theorem popcCountsTheOneBits : Obligations.PopcCountsTheOneBits := by
  refine ⟨(onesBelow · 32), onesBelow_zero 32, fun w k hlt hk => ?_, ?_⟩
  · simpa [hlt] using onesBelow_clearBit hk 32
  · exact computes_of_finish (op := .popc) (fun _ _ => rfl) (fun _ _ _ _ => rfl) fun _ _ => logicResult_eq _

/-- Settles O15: the result's bits are those of the rotation by the count modulo 32. -/
theorem rolRotatesLeft : Obligations.RolRotatesLeft :=
  ⟨fun a b => (rolResult a b).res, fun a b _ => getLsbD_rolResult a b,
    computes_of_finish (op := .rol) (fun _ _ => rfl) (fun _ _ _ _ => rfl) fun _ _ => logicResult_eq _⟩

/-- Settles O16: both write their result back and finish without flags. -/
theorem ldiloAndBrevKeepTheFlags : Obligations.LdiloAndBrevKeepTheFlags :=
  ⟨⟨lowReplaced, fun a b _ => getLsbD_lowReplaced a b,
      computes_of_writeReg (op := .ldilo) (fun _ _ => rfl) fun _ _ _ _ => rfl⟩,
    bitReversed, fun b _ => getLsbD_bitReversed b,
    computes_of_writeReg (op := .brev) (fun _ _ => rfl) fun _ _ _ _ => rfl⟩

/-- Settles O17: CMP sets the flags of SUB's result and TST those of AND's, and neither writes back. -/
theorem compareSetsOnlyFlags : Obligations.CompareSetsOnlyFlags :=
  ⟨compares_of_setFlags (op := .cmp) (by decide) (fun _ _ _ _ => rfl) subResult_eq,
    compares_of_setFlags (op := .tst) (by decide) (fun _ _ _ _ => rfl) fun a b => logicResult_eq (a &&& b)⟩

end Sys2Proof.Proofs
end

section
/-! ## Words of the spec's examples -/

namespace Sys2Proof

/-- A word decodes to the well-formed instruction whose encoding it is. -/
theorem decode_eq_of_encode {i : Instr} {w : Word} (he : encode i = w) (hwf : i.wellFormed = true) : decode w = i :=
  he ▸ decode_encode hwf

end Sys2Proof

namespace Sys2Proof.Proofs

open Sys2Proof Sys2Proof.Machine Sys2Proof.Says

/-- Settles O3: each word is the encoding of its instruction. -/
theorem decodedWords : Obligations.DecodedWords := by
  refine ⟨?_, ?_, ?_, ?_, ?_, ?_, ?_, ?_, ?_, ?_⟩ <;> exact decode_eq_of_encode (by decide) rfl

end Sys2Proof.Proofs
end

section
/-! ## MOV and LDI (42_move_ldi.md R180, R181)

A MOV's A and B bits select a set each: the running mode's own, which the rules of a standard word cover, or the user set from
supervisor mode, which the PC's advance does not touch. -/

namespace Sys2Proof.Machine

open Sys2Proof Sys2Proof.Says

variable {s : State} {bit : Bool}

theorem State.movSet_own (h : s.gie = true ∨ bit = false) : s.movSet bit = s.gie := by
  rcases h with hg | rfl
  · rw [State.movSet, hg, Bool.true_or]
  · exact Bool.or_false s.gie

theorem State.movSet_true (s : State) : s.movSet true = true := Bool.or_true s.gie

theorem State.writeIn_own (s : State) (r : Reg) (v : Word) : s.writeIn s.gie r v = s.writeReg r v := if_pos rfl

theorem passed_gie (s : State) : (passed s).gie = s.gie := s.advance_gie

theorem passed_usr (hg : s.gie = false) : (passed s).usr = s.usr := by
  simp [passed, moved, withOwn, hg]

/-- Past a supervisor-mode instruction the user set reads as before it. -/
theorem readIn_user_passed (hg : s.gie = false) (r : Reg) : (passed s).readIn true r = s.readIn true r := by
  cases r with
  | gpr n => exact congrArg (fun u : RegSet => u.r[n]) (passed_usr hg)
  | cc => exact s.readCC_advance true
  | pc => exact congrArg RegSet.pc (passed_usr hg)

/-- From supervisor mode a general register of the user set is plain storage. -/
theorem writeIn_user_gpr_passed (hg : s.gie = false) (n : Fin 14) (v : Word) :
    (passed s).writeIn true (.gpr n) v = { passed s with usr := { s.usr with r := s.usr.r.set n v } } := by
  have hne : ¬true = (passed s).gie := by simp [passed_gie, hg]
  rw [State.writeIn, if_neg hne, ← passed_usr hg]
  rfl

/-- From supervisor mode the user set's PC is plain storage, and a write to it no jump. -/
theorem writeIn_user_pc_passed (hg : s.gie = false) (v : Word) :
    (passed s).writeIn true .pc v = { passed s with usr := { s.usr with pc := v } } := by
  have hne : ¬true = (passed s).gie := by simp [passed_gie, hg]
  rw [State.writeIn, if_neg hne, ← passed_usr hg]
  rfl

/-- What a MOV's source register holds: the user set's as it stands where B selects that from supervisor mode, else what any
instruction reads. -/
theorem readIn_movSet_passed (s : State) (x : Bool) (br : Reg) : (passed s).readIn (s.movSet x) br =
    if s.gie = false ∧ x = true then s.readIn true br else regValue s br := by
  split
  next h =>
    obtain ⟨hg, rfl⟩ := h
    rw [s.movSet_true, readIn_user_passed hg]
  next h =>
    have hown : s.gie = true ∨ x = false := by simpa [or_iff_not_imp_left] using h
    rw [State.movSet_own hown, ← passed_gie, ← readReg_passed]
    rfl

/-- A MOV whose condition holds writes its source plus offset to the set that A selects. -/
theorem exec_mov_executed {cnd : Cond} (hc : condHolds cnd (own s).flags = true) (dr : Reg) (a : Bool) (br : Reg) (x : Bool)
    (imm : BitVec 13) : exec (.mov dr cnd a br x imm) s = .next ((passed s).writeIn (s.movSet a) dr
      ((if s.gie = false ∧ x = true then s.readIn true br else regValue s br) + imm.signExtend 32)) := by
  have hset (bit : Bool) : (passed s).movSet bit = s.movSet bit := congrArg (· || bit) (passed_gie s)
  calc exec (.mov dr cnd a br x imm) s
      = .next ((passed s).writeIn ((passed s).movSet a) dr
          ((passed s).readIn ((passed s).movSet x) br + imm.signExtend 32)) :=
        congrArg Host.Outcome.next (s.runWord_executed _ hc)
    _ = _ := by rw [hset, hset, readIn_movSet_passed]

/-- LDI writes its immediate to a register of the running mode; it has no condition. -/
theorem exec_ldi (s : State) (dr : Reg) (imm : BitVec 23) :
    exec (.ldi dr imm) s = .next ((passed s).writeReg dr (imm.signExtend 32)) := rfl

end Sys2Proof.Machine

namespace Sys2Proof.Proofs

open Sys2Proof Sys2Proof.Machine Sys2Proof.Says

/-- Settles O18: A selects the running mode's set, where MOV writes back as any instruction, or the user set's plain storage. -/
theorem movMovesBetweenTheSets : Obligations.MovMovesBetweenTheSets := by
  intro s cnd a br x imm v hc hv
  have hexec (dr : Reg) : exec (.mov dr cnd a br x imm) s = .next ((passed s).writeIn (s.movSet a) dr v) :=
    hv ▸ exec_mov_executed hc dr a br x imm
  constructor
  · intro hown
    have hwrite (dr : Reg) : exec (.mov dr cnd a br x imm) s = .next ((passed s).writeReg dr v) := by
      rw [hexec, State.movSet_own hown, ← passed_gie, State.writeIn_own]
    refine ⟨fun n => ?_, ?_, hwrite .cc⟩
    · rw [hwrite, writeReg_gpr_passed]
    · rw [hwrite, writeReg_pc_passed]
  · rintro ⟨hg, rfl⟩
    simp only [hexec, s.movSet_true]
    exact ⟨fun n => congrArg _ (writeIn_user_gpr_passed hg n v), congrArg _ (writeIn_user_pc_passed hg v), trivial⟩

/-- Settles O19: LDI writes back as any instruction, past its own address. -/
theorem ldiLoadsTheImmediate : Obligations.LdiLoadsTheImmediate := fun s imm =>
  ⟨fun n => exec_ldi_gpr s n imm, by rw [exec_ldi, writeReg_pc_passed], exec_ldi s .cc imm⟩

end Sys2Proof.Proofs
end

section
/-! ## Multiplies (43_multiply.md R185 to R187)

The high words are the upper halves of 64-bit products, and such a product of two extended words is the low 64 bits of the product
of the numbers they stand for. -/

namespace Sys2Proof.Machine

open Sys2Proof Sys2Proof.Says

theorem ofNat_toNat_mul (a b : Word) : BitVec.ofNat 32 (a.toNat * b.toNat) = a * b := by
  rw [BitVec.ofNat_mul, BitVec.ofNat_toNat, BitVec.ofNat_toNat, BitVec.setWidth_eq, BitVec.setWidth_eq]

theorem zeroExtend_mul_zeroExtend (a b : Word) :
    a.zeroExtend 64 * b.zeroExtend 64 = BitVec.ofNat 64 (a.toNat * b.toNat) := by
  rw [BitVec.ofNat_mul, BitVec.ofNat_toNat, BitVec.ofNat_toNat]

theorem signExtend_mul_signExtend (a b : Word) :
    a.signExtend 64 * b.signExtend 64 = BitVec.ofInt 64 (a.toInt * b.toInt) :=
  (BitVec.ofInt_mul ..).symm

/-- What of an integer lies beyond its low 64 bits is not seen in their upper half. -/
theorem upperHalf_ofInt (z : Int) : (BitVec.ofInt 64 z).extractLsb' 32 32 = BitVec.ofInt 32 (z / 2 ^ 32) := by
  apply BitVec.eq_of_toNat_eq
  simp only [BitVec.extractLsb'_toNat, BitVec.toNat_ofInt, Nat.shiftRight_eq_div_pow]
  omega

theorem upperHalf_ofNat (n : Nat) : (BitVec.ofNat 64 n).extractLsb' 32 32 = BitVec.ofNat 32 (n / 2 ^ 32) := by
  exact_mod_cast upperHalf_ofInt n

theorem mpyResult_eq (a b : Word) : mpyResult a b =
    ⟨BitVec.ofNat 32 (a.toNat * b.toNat), zn (BitVec.ofNat 32 (a.toNat * b.toNat)) false false⟩ := by
  rw [mpyResult, logicResult_eq, ofNat_toNat_mul]

theorem mpyuhiResult_eq (a b : Word) : mpyuhiResult a b =
    ⟨BitVec.ofNat 32 (a.toNat * b.toNat / 2 ^ 32), zn (BitVec.ofNat 32 (a.toNat * b.toNat / 2 ^ 32)) false false⟩ := by
  rw [mpyuhiResult, logicResult_eq, zeroExtend_mul_zeroExtend, upperHalf_ofNat]

theorem mpyshiResult_eq (a b : Word) : mpyshiResult a b =
    ⟨BitVec.ofInt 32 (a.toInt * b.toInt / 2 ^ 32), zn (BitVec.ofInt 32 (a.toInt * b.toInt / 2 ^ 32)) false false⟩ := by
  rw [mpyshiResult, logicResult_eq, signExtend_mul_signExtend, upperHalf_ofInt]

/-- A build with the multiply unit has it for the three multiplies (30_encoding.md R114). -/
theorem State.hasMultiply_built (s : State) (hb : s.cfg.implementMpy ≠ 0) : s.hasMultiply = true := bne_iff_ne.mpr hb

end Sys2Proof.Machine

namespace Sys2Proof.Proofs

open Sys2Proof Sys2Proof.Machine Sys2Proof.Says

/-- Settles O20: the three finish with a word of the product whose C and V are clear. -/
theorem multipliesWriteTheProduct : Obligations.MultipliesWriteTheProduct :=
  ⟨computes_of_finish (op := .mpy) State.hasMultiply_built (fun _ _ _ _ => rfl) mpyResult_eq,
    computes_of_finish (op := .mpyuhi) State.hasMultiply_built (fun _ _ _ _ => rfl) mpyuhiResult_eq,
    computes_of_finish (op := .mpyshi) State.hasMultiply_built (fun _ _ _ _ => rfl) mpyshiResult_eq⟩

end Sys2Proof.Proofs
end

section
/-! ## Divides (44_divide.md R190, R191)

A divide takes its two free bits past the instruction and then finishes as any ALU word. The count of free values is no part of
what finishing reads or writes, so it may be moved on before the instruction as well as after it. -/

namespace Sys2Proof.Machine

open Sys2Proof Sys2Proof.Says

theorem quotientU_eq (a b : Word) : quotientU a b = BitVec.ofNat 32 (a.toNat / b.toNat) := BitVec.udiv_def

/-- The quotient that does not fit, -2^31 by -1, wraps to -2^31 on both sides. -/
theorem quotientS_eq (a b : Word) : quotientS a b = BitVec.ofInt 32 (a.toInt.tdiv b.toInt) :=
  BitVec.eq_of_toInt_eq ((BitVec.toInt_sdiv a b).trans (BitVec.toInt_ofInt _).symm)

theorem divResult_eq (q : Word) (c v : Bool) : divResult q c v = ⟨q, zn q c v⟩ := by
  rw [divResult, resultFlags_eq_zn]

theorem withOwn_draws (s : State) (k : Nat) (rs : RegSet) :
    withOwn { s with draws := k } rs = { withOwn s rs with draws := k } := by
  cases hg : s.gie <;> simp [withOwn, hg]

theorem draws_passed (s : State) : (passed s).draws = s.draws := by
  cases hg : s.gie <;> simp [passed, moved, withOwn, hg]

theorem passed_draws (s : State) (k : Nat) : passed { s with draws := k } = { passed s with draws := k } :=
  withOwn_draws s k _

theorem moved_draws (s : State) (k : Nat) (pc : Word) : moved { s with draws := k } pc = { moved s pc with draws := k } :=
  withOwn_draws s k _

theorem wrote_draws (s : State) (k : Nat) (n : Fin 14) (v : Word) (f : Flags) :
    wrote { s with draws := k } n v f = { wrote s n v f with draws := k } :=
  withOwn_draws s k _

/-- Finishing a divide is finishing an ALU word with the quotient, Z and N from it, and the next two free bits. -/
theorem finishDivide_passed (s : State) (ctx : Ctx) (dr : Reg) (q : Word) : (passed s).finishDivide ctx dr q =
    (passed { s with draws := s.draws + 2 }).finish ctx.conditional dr
      ⟨q, zn q (Config.freeBit s.draws) (Config.freeBit (s.draws + 1))⟩ := by
  rw [State.finishDivide, divResult_eq, draws_passed, passed_draws s (s.draws + 2)]

theorem bodyDivu_nonzero {b : Word} (hb : b ≠ 0#32) (dr : Reg) (ctx : Ctx) (s : State) :
    bodyDivu dr b ctx s = .done (s.finishDivide ctx dr (quotientU (s.readReg dr) b)) := if_neg hb

theorem bodyDivs_nonzero {b : Word} (hb : b ≠ 0#32) (dr : Reg) (ctx : Ctx) (s : State) :
    bodyDivs dr b ctx s = .done (s.finishDivide ctx dr (quotientS (s.readReg dr) b)) := if_neg hb

/-- An operation of the divide unit that, for a nonzero denominator, finishes with a quotient. -/
theorem divides_of_finishDivide {op : StdOp} {quotient q : Word → Word → Word}
    (hbuilt : ∀ s : State, s.stdBuilt op = s.cfg.implementDivide)
    (hbody : ∀ {b : Word}, b ≠ 0#32 → ∀ dr ctx t,
      bodyStd op dr b ctx t = .done (t.finishDivide ctx dr (quotient (t.readReg dr) b)))
    (hquotient : ∀ a b, quotient a b = q a b) : Divides (stdInstr op) q := by
  intro s cnd b hdiv hc hb
  have hexec := fun dr => exec_std_executed ((hbuilt s).trans hdiv) hc dr b
  simp only [hbody hb, Ran.state, readReg_passed, hquotient, finishDivide_passed] at hexec
  refine ⟨fun n => ⟨Config.freeBit s.draws, Config.freeBit (s.draws + 1), s.draws + 2, ?_⟩,
    ⟨s.draws + 2, ?_⟩, s.draws + 2, ?_⟩
  · rw [hexec, finish_gpr_passed, wrote_draws]
    by_cases hcnd : cnd = .always <;> simp [hcnd, regValue, own]
  · rw [hexec, State.finish_other _ _ _ rfl, writeReg_pc_passed, moved_draws]
    rfl
  · rw [hexec, State.finish_other _ _ _ rfl, passed_draws]
    rfl

end Sys2Proof.Machine

namespace Sys2Proof.Proofs

open Sys2Proof Sys2Proof.Machine Sys2Proof.Says

/-- Settles O21: with a nonzero denominator both finish with the quotient that the words' values have, rounded toward zero. -/
theorem dividesWriteTheQuotient : Obligations.DividesWriteTheQuotient :=
  ⟨divides_of_finishDivide (op := .divu) (fun _ => rfl) bodyDivu_nonzero quotientU_eq,
    divides_of_finishDivide (op := .divs) (fun _ => rfl) bodyDivs_nonzero quotientS_eq⟩

end Sys2Proof.Proofs
end

section
/-! ## NOOP, BREAK and LOCK (45_noop_break_lock.md R195 to R197)

The words of the NOOP group are their selector's base word with the payload in the low 22 bits. A locked sequence holds the bus
because `State.busFree` is false in it, and the host because `State.inLock` is true until the CPU waits or stops. -/

namespace Sys2Proof

/-- A payload added to a multiple of 2^22 fills the word's low 22 bits. -/
theorem ofNat_add_payload (n : Nat) (payload : BitVec 22) :
    BitVec.ofNat 32 (2 ^ 22 * n + payload.toNat) = BitVec.ofNat 32 (2 ^ 22 * n) ||| payload.zeroExtend 32 := by
  rw [Nat.two_pow_add_eq_or_of_lt payload.isLt, BitVec.ofNat_or, BitVec.ofNat_toNat]

theorem encodeGroup_eq_or (sel : Nat) (bit27 : Bool) (payload : BitVec 22) :
    encodeGroup sel bit27 payload = encodeGroup sel bit27 0#22 ||| payload.zeroExtend 32 := by
  have hbase : ∀ p : BitVec 22, encodeGroup sel bit27 p =
      BitVec.ofNat 32 (2 ^ 22 * (7 * 2 ^ 6 + bit27.toNat * 2 ^ 5 + (0x18 + sel)) + p.toNat) := fun p =>
    congrArg (BitVec.ofNat 32) (by omega)
  rw [hbase payload, ofNat_add_payload, hbase 0#22]
  rfl

theorem decode_noop (bit27 : Bool) (payload : BitVec 22) :
    decode (encodeGroup 0 bit27 0#22 ||| payload.zeroExtend 32) = .noop bit27 payload :=
  decode_eq_of_encode (i := .noop bit27 payload) (encodeGroup_eq_or 0 bit27 payload) rfl

end Sys2Proof

namespace Sys2Proof.Machine

open Sys2Proof Sys2Proof.Says

variable {s : State}

/-! ### BREAK -/

theorem exec_brk_user (hg : s.gie = true) (hb : s.breakEn = false) (bit27 : Bool) (payload : BitVec 22) :
    exec (.brk bit27 payload) s = .next (entered { s with ubreak := true } s.usr.pc false) := by
  have hpc : s.active.pc = s.usr.pc := by simp [State.active, hg]
  show Host.Outcome.next (s.takeException .break_ s.active.pc false) = _
  rw [hpc, s.takeException_break_user _ _ hg, if_neg (by simp [hb])]
  rfl

/-- Where BREAK halts, in either mode, only PHASE of the running mode's set, HALTED and the locked sequence are touched. -/
theorem exec_brk_halts (h : s.gie = false ∨ s.breakEn = true) (bit27 : Bool) (payload : BitVec 22) :
    exec (.brk bit27 payload) s =
      .next { withOwn s { own s with phase := false } with halted := true, lockLeft := 0 } := by
  show Host.Outcome.next (s.takeException .break_ s.active.pc false) = _
  cases hg : s.gie with
  | false =>
    rw [s.takeException_supervisor _ _ _ hg]
    simp [withOwn, own, State.active, hg, RegSet.mark]
  | true =>
    have hb : s.breakEn = true := h.resolve_left (by simp [hg])
    rw [s.takeException_break_user _ _ hg, if_pos hb]
    simp [withOwn, own, State.active, hg]

/-! ### A locked sequence -/

theorem State.busFree_locked (h : s.lockLeft ≠ 0) : s.busFree = false := by
  simp [State.busFree, h]

theorem State.takesInterrupt_locked (h : s.lockLeft ≠ 0) : s.takesInterrupt = false := by
  simp [State.takesInterrupt, h]

theorem State.inLock_running (h : s.lockLeft ≠ 0) (hh : s.halted = false) (hs : s.sleep = false) : s.inLock = true := by
  simp [State.inLock, h, hh, hs]

/-- Only a write of ZIPCTRL with bit 6 set commands a reset. -/
theorem HostAccess.resets_eq_false {a : HostAccess} (h : ∀ w, a = .writeCtrl w → w.getLsbD 6 = false) :
    a.resets = false := by
  cases a with
  | writeCtrl w => exact h w rfl
  | readCtrl => rfl
  | writeData w => rfl
  | readData => rfl

/-- Inside a locked sequence every access but a reset is put off. -/
theorem State.hostAccess_deferred (hl : s.inLock = true) (h : ∀ a, s.cur.host = some a → a.resets = false) :
    s.hostAccess = some (s, false) := by
  unfold State.hostAccess
  cases hh : s.cur.host with
  | none => rfl
  | some a => exact if_pos (by simp [hl, h a hh])

/-- A commanded reset is made at once, inside a locked sequence too. -/
theorem State.hostAccess_reset {w : Word} (hh : s.cur.host = some (.writeCtrl w)) (hw : w.getLsbD 6 = true) :
    s.hostAccess = some (s.writeCtrl w) := by
  have hnot : (s.inLock && !(HostAccess.writeCtrl w).resets) = false := by simp [HostAccess.resets, hw]
  simp [State.hostAccess, hh, hnot]

theorem State.lockStep_of_ne_lock {i : Instr} (h : ∀ bit27 payload, i ≠ .lock bit27 payload) :
    s.lockStep i = { s with lockLeft := s.lockLeft - 1 } := by
  cases i with
  | lock bit27 payload => exact absurd rfl (h bit27 payload)
  | _ => rfl

end Sys2Proof.Machine

namespace Sys2Proof.Proofs

open Sys2Proof Sys2Proof.Machine Sys2Proof.Says

/-- Settles O24: NOOP's body does nothing, and each base word with a payload is the encoding of the NOOP with that payload. -/
theorem noopOnlyAdvances : Obligations.NoopOnlyAdvances :=
  ⟨exec_noop, fun payload => ⟨decode_noop true payload, decode_noop false payload⟩⟩

/-- Settles O25: BREAK is an exception that switches or halts, as the mode and BREAK_EN say. -/
theorem breakSwitchesOrHalts : Obligations.BreakSwitchesOrHalts :=
  ⟨fun _ bit27 payload => ⟨fun hg hb => exec_brk_user hg hb bit27 payload, fun h => exec_brk_halts h bit27 payload⟩,
    decode_eq_of_encode (i := .brk true 0#22) (by decide) rfl, decode_eq_of_encode (i := .brk false 0#22) (by decide) rfl⟩

/-- Settles O26: while instructions are left the bus is not free and the CPU is in the lock; only LOCK itself does not count. -/
theorem lockHoldsTheBus : Obligations.LockHoldsTheBus := by
  refine ⟨fun _ bit27 payload hl hp => exec_lock_built hl hp bit27 payload, fun s h => ?_,
    fun _ _ => State.hostAccess_reset, fun _ _ _ => rfl, fun _ _ => State.lockStep_of_ne_lock⟩
  have hbus := State.busFree_locked h
  refine ⟨State.takesInterrupt_locked h, s.dmaMove_held hbus, fun p => s.masterWrite_held p hbus, s.grantBus_held hbus,
    fun hh hs hreset => State.hostAccess_deferred (State.inLock_running h hh hs) fun a ha => ?_⟩
  exact HostAccess.resets_eq_false fun w hw => hreset w (hw ▸ ha)

end Sys2Proof.Proofs
end

section
/-! ## The opcodes no build has (46_floating_point.md R200 to R202; 45_noop_break_lock.md R198)

The k-th unbuilt row has opcode 5'h18 + k, and the k-th undefined row of the NOOP space selector 3 + k. A word of that
space is therefore the encoding of one row, which `decode_encode` reads back. -/

namespace Sys2Proof

open Sys2Proof.Says

variable {w : Word}

/-! ### Rows by their opcode -/

theorem encode_unbuiltRows (k : Fin 8) (dr : Reg) (cnd : Cond) (b : OpB) :
    encode (unbuiltRows.get k dr cnd b) = encodeStd (0x18 + k) dr cnd b := by
  fin_cases k <;> rfl

theorem wellFormed_unbuiltRows (k : Fin 8) (dr : Reg) (cnd : Cond) (b : OpB) :
    (unbuiltRows.get k dr cnd b).wellFormed = dr.isGpr := by
  fin_cases k <;> rfl

theorem encode_undefinedGroupRows (k : Fin 5) (bit27 : Bool) (payload : BitVec 22) :
    encode (undefinedGroupRows.get k bit27 payload) = encodeGroup (3 + k) bit27 payload := by
  fin_cases k <;> rfl

theorem wellFormed_undefinedGroupRows (k : Fin 5) (bit27 : Bool) (payload : BitVec 22) :
    (undefinedGroupRows.get k bit27 payload).wellFormed = true := by
  fin_cases k <;> rfl

/-! ### The opcode and the space of a word -/

theorem inNoopSpace_iff : inNoopSpace w = true ↔ w.extractLsb' 28 3 = 7#3 := beq_iff_eq

/-- With bits 26 and 25 set the opcode is 5'h18 plus the three bits that follow, the selector of R107. -/
theorem opcode_of_upper (h : w.extractLsb' 25 2 = 3#2) : opcode w = 0x18 + (w.extractLsb' 22 3).toNat := by
  have hupper := congrArg BitVec.toNat h
  rw [extractLsb'_toNat_eq_div_mod, BitVec.toNat_ofNat] at hupper
  rw [opcode_eq_div_mod, extractLsb'_toNat_eq_div_mod]
  omega

/-! ### From a word to its row -/

section
variable (h31 : w.getLsbD 31 = false)
include h31

/-- A word of the NOOP group's space is the row of its selector, with its bit 27 and its payload. -/
theorem decode_noopSpace {sel : Nat} {mk : Bool → BitVec 22 → Instr} (hop : opcode w = 0x18 + sel)
    (hspace : inNoopSpace w = true) (hencode : ∀ bit27 payload, encode (mk bit27 payload) = encodeGroup sel bit27 payload)
    (hwf : ∀ bit27 payload, (mk bit27 payload).wellFormed = true) :
    decode w = mk (w.getLsbD 27) (w.extractLsb' 0 22) := by
  have hgroup := encodeGroup_of_fields h31 hop (Nat.le_add_right _ _) hspace
  rw [Nat.add_sub_cancel_left] at hgroup
  exact decode_eq_of_encode ((hencode _ _).trans hgroup) (hwf _ _)

theorem decode_undefinedGroupRow (hupper : 0x1b ≤ opcode w) (hspace : inNoopSpace w = true) :
    ∃ mk ∈ undefinedGroupRows, decode w = mk (w.getLsbD 27) (w.extractLsb' 0 22) := by
  have hlt := opcode_lt w
  obtain ⟨k, hop⟩ : ∃ k : Fin 5, opcode w = 0x18 + (3 + k) := ⟨⟨opcode w - 0x1b, by omega⟩, by simp only; omega⟩
  exact ⟨undefinedGroupRows.get k, undefinedGroupRows.get_mem k,
    decode_noopSpace h31 hop hspace (encode_undefinedGroupRows k) (wellFormed_undefinedGroupRows k)⟩

theorem decode_unbuiltRow (hupper : 0x18 ≤ opcode w) (hspace : inNoopSpace w = false) :
    ∃ mk ∈ unbuiltRows, decode w = mk (decodeReg (w.extractLsb' 27 4)) (decodeCond (w.extractLsb' 19 3))
      (decodeOpB (w.extractLsb' 0 19)) := by
  have hlt := opcode_lt w
  obtain ⟨k, hop⟩ : ∃ k : Fin 8, opcode w = 0x18 + k := ⟨⟨opcode w - 0x18, by omega⟩, by simp only; omega⟩
  have hgpr : (decodeReg (w.extractLsb' 27 4)).isGpr = true := by
    rw [isGpr_decodeReg_eq_not_inNoopSpace, hspace, Bool.not_false]
  exact ⟨unbuiltRows.get k, unbuiltRows.get_mem k, decode_eq_of_encode
    ((encode_unbuiltRows k _ _ _).trans (encodeStd_of_fields h31 hop)) ((wellFormed_unbuiltRows k _ _ _).trans hgpr)⟩

end

end Sys2Proof

namespace Sys2Proof.Machine

open Sys2Proof Sys2Proof.Says

/-- No build has the undefined rows of the NOOP space (45_noop_break_lock.md R198). -/
theorem exec_undefinedGroupRows (s : State) (bit27 : Bool) (payload : BitVec 22) :
    ∀ mk ∈ undefinedGroupRows, exec (mk bit27 payload) s = .next (illegalEntry s) := by
  have hundefined : (.next s.undefinedHere : Host.Outcome State Fault Refusal) = .next (illegalEntry s) :=
    congrArg _ s.takeException_illegal
  simp only [undefinedGroupRows, List.forall_mem_cons, List.not_mem_nil, false_implies, implies_true, and_true]
  exact ⟨hundefined, hundefined, hundefined, hundefined, hundefined⟩

/-- From opcode 5'h18 on, a word that is not NOOP, BREAK or LOCK is illegal: in the NOOP group's space its selector is 3 or
more, elsewhere its opcode is one of no build. -/
theorem exec_decode_illegal {w : Word} (h31 : w.getLsbD 31 = false) (hupper : 0x18 ≤ opcode w)
    (h : ¬(inNoopSpace w = true ∧ opcode w ≤ 0x1a)) (s : State) : exec (decode w) s = .next (illegalEntry s) := by
  cases hspace : inNoopSpace w with
  | true =>
    have hsel : 0x1b ≤ opcode w := Nat.lt_of_not_le fun hle => h ⟨hspace, hle⟩
    obtain ⟨mk, hmk, hdecode⟩ := decode_undefinedGroupRow h31 hsel hspace
    rw [hdecode, exec_undefinedGroupRows s _ _ mk hmk]
  | false =>
    obtain ⟨mk, hmk, hdecode⟩ := decode_unbuiltRow h31 hupper hspace
    rw [hdecode, exec_unbuiltRows s _ _ _ mk hmk]

end Sys2Proof.Machine

namespace Sys2Proof.Proofs

open Sys2Proof Sys2Proof.Machine Sys2Proof.Says

/-- Settles O27: each of these rows is the undefined instruction at the active PC, whatever its operands. -/
theorem unbuiltOpcodesAreIllegal : Obligations.UnbuiltOpcodesAreIllegal :=
  ⟨fun mk hmk s dr cnd b => exec_unbuiltRows s dr cnd b mk hmk,
    fun mk hmk s bit27 payload => exec_undefinedGroupRows s bit27 payload mk hmk⟩

/-- Settles O28: the space and the selector name the row, of which only NOOP, BREAK and LOCK are defined. -/
theorem floatingPointSpaceByWord : Obligations.FloatingPointSpaceByWord := by
  intro w h31 h25
  have hop := opcode_of_upper h25
  have hopcode : ∀ {sel : BitVec 3}, w.extractLsb' 22 3 = sel → opcode w = 0x18 + sel.toNat := fun h => h ▸ hop
  refine ⟨fun hspace hsel => ?noop, fun hspace hsel => ?brk, fun hspace hsel => ?lock, fun hnot => ?illegal⟩
  case noop | brk | lock =>
    exact decode_noopSpace h31 (hopcode hsel) (inNoopSpace_iff.mpr hspace) (fun _ _ => rfl) fun _ _ => rfl
  case illegal =>
    refine exec_decode_illegal h31 (by omega) fun ⟨hspace, hle⟩ => hnot ⟨inNoopSpace_iff.mp hspace, ?_⟩
    omega

end Sys2Proof.Proofs
end

section
/-! ## What answers at an address (20_memory.md R76 to R79; 60_exceptions.md R355, R362)

The CPU decodes the peripheral space by two address bits and a register by its offset from PERIPH_BASE; the statements name both by
address. A transaction then fails exactly as `BusFails` says. -/

namespace Sys2Proof.Machine

open Sys2Proof Sys2Proof.Says

variable {cfg : Config} {s : State} {a : Word} {k : Nat}

theorem inPeriphSpace_iff : inPeriphSpace a = true ↔ 0xc0000000 ≤ a.toNat := by
  have ha := a.isLt
  rw [inPeriphSpace, beq_iff_eq, ← BitVec.toNat_inj, BitVec.extractLsb'_toNat, Nat.shiftRight_eq_div_pow]
  simp only [BitVec.toNat_ofNat]
  omega

theorem inPeriphSpace_eq_false_iff : inPeriphSpace a = false ↔ a.toNat < 0xc0000000 := by
  rw [← Bool.not_eq_true, inPeriphSpace_iff, Nat.not_le]

theorem periphPresent_iff (hk : k < 20) : periphPresent cfg ⟨k, hk⟩ = true ↔ HasRegister cfg k := by
  simp only [periphPresent, HasRegister, Bool.and_eq_true, Bool.or_eq_true, decide_eq_true_eq, or_assoc, hk, true_and]

theorem lt_of_hasRegister (h : HasRegister cfg k) : k < 20 := by
  obtain ⟨_, hk⟩ := h
  omega

theorem toNat_registerAddress (hk : k < 20) : (registerAddress k).toNat = 0xc0000000 + k := by
  simp only [registerAddress, BitVec.toNat_add, BitVec.toNat_ofNat]
  omega

theorem inPeriphSpace_registerAddress (hk : k < 20) : inPeriphSpace (registerAddress k) = true :=
  inPeriphSpace_iff.mpr (by rw [toNat_registerAddress hk]; omega)

/-- The offset of an address from the base, and the register address with an offset, undo each other. -/
theorem toNat_sub_base_eq_iff (hk : k < 20) : (a - 0xc0000000#32).toNat = k ↔ a = registerAddress k := by
  rw [← BitVec.toNat_inj, toNat_registerAddress hk]
  bv_omega

theorem periphIndex_registerAddress (hb : cfg.periphBase = 0xc0000000#32) (hr : HasRegister cfg k) :
    ∃ i, periphIndex cfg (registerAddress k) = some i := by
  have hk := lt_of_hasRegister hr
  have hoff : (registerAddress k - cfg.periphBase).toNat = k := by rw [hb, toNat_sub_base_eq_iff hk]
  have hlt : (registerAddress k - cfg.periphBase).toNat < 20 := hoff.symm ▸ hk
  have hpresent : periphPresent cfg ⟨_, hlt⟩ = true := by rwa [periphPresent_iff, hoff]
  exact ⟨_, by rw [periphIndex, dif_pos hlt, if_pos hpresent]⟩

/-- No register answers exactly where the build has none with that address. -/
theorem periphIndex_eq_none_iff (hb : cfg.periphBase = 0xc0000000#32) :
    periphIndex cfg a = none ↔ ∀ k, HasRegister cfg k → a ≠ registerAddress k := by
  constructor
  · rintro hn k hr rfl
    obtain ⟨i, hi⟩ := periphIndex_registerAddress hb hr
    cases hn.symm.trans hi
  · intro hno
    unfold periphIndex
    split
    next hlt =>
      refine if_neg fun hpresent => hno _ ((periphPresent_iff hlt).mp hpresent) ?_
      exact (toNat_sub_base_eq_iff hlt).mp (by rw [hb])
    next => rfl

theorem targetAt_eq_none_iff (hb : cfg.periphBase = 0xc0000000#32) : targetAt cfg a = none ↔ NothingAt cfg a := by
  cases hp : inPeriphSpace a with
  | false =>
    have hlt := inPeriphSpace_eq_false_iff.mp hp
    simp [targetAt, NothingAt, hp, hlt]
  | true =>
    have hle := inPeriphSpace_iff.mp hp
    simp [targetAt, NothingAt, hp, hle, periphIndex_eq_none_iff hb]

/-! ### Transactions that something takes -/

theorem State.transact_answersAs {kind : RegionKind} (h : s.answersAs a kind) :
    s.transact a = (some (.region kind), s) := by
  obtain ⟨hp, hk, hc⟩ := h
  simp [s.transact_calm a hc, targetAt, hp, hk]

theorem State.transact_register (hb : s.cfg.periphBase = 0xc0000000#32) (hr : HasRegister s.cfg k)
    (hc : s.calm (registerAddress k)) : ∃ i, s.transact (registerAddress k) = (some (.register i), s) := by
  obtain ⟨i, hi⟩ := periphIndex_registerAddress hb hr
  exact ⟨i, by simp [s.transact_calm _ hc, targetAt, inPeriphSpace_registerAddress (lt_of_hasRegister hr), hi]⟩

/-! ### Transactions that fail -/

theorem State.raisesErr_iff : s.raisesErr a = true ↔ ⟨a, 0, .err⟩ ∈ s.cur.fates := List.contains_iff_mem

/-- Without a time-out a failed transaction only uses up the schedule's entry. -/
theorem failed_of_not_timesOut (h : s.timesOut a = false) : failed s a = s.turn a := by
  rw [failed, h]
  rfl

theorem State.transact_fails (hb : s.cfg.periphBase = 0xc0000000#32) (h : BusFails s a) :
    s.transact a = (none, failed s a) := by
  cases ht : s.timesOut a with
  | true =>
    have hper : (s.turn a).per = s.per := rfl
    simp [State.transact, failed, ht, hper]
  | false =>
    rw [failed_of_not_timesOut ht]
    rcases h with htrue | herr | hnone
    · simp [ht] at htrue
    · simp [State.transact, ht, State.raisesErr_iff.mpr herr]
    · simp [State.transact, ht, (targetAt_eq_none_iff hb).mpr hnone]

/-- A transaction that does not fail goes to what is at the address. -/
theorem State.transact_of_not_fails (h : ¬BusFails s a) : s.transact a = (targetAt s.cfg a, s.turn a) := by
  obtain ⟨ht, herr, _⟩ : s.timesOut a = false ∧ s.raisesErr a = false ∧ ¬NothingAt s.cfg a := by
    simpa [BusFails, ← State.raisesErr_iff] using h
  simp [State.transact, ht, herr]

theorem State.transact_eq_none_iff (hb : s.cfg.periphBase = 0xc0000000#32) :
    (s.transact a).1 = none ↔ BusFails s a := by
  refine ⟨fun hn => by_contra fun h => ?_, fun h => by rw [State.transact_fails hb h]⟩
  rw [State.transact_of_not_fails h] at hn
  exact h (.inr (.inr ((targetAt_eq_none_iff hb).mp hn)))

theorem State.busRead_of_transact_none {t : State} (h : s.transact a = (none, t)) : s.busRead a = (none, t) := by
  rw [State.busRead, h]

theorem State.busWrite_of_transact_none {t : State} (w : Word) (h : s.transact a = (none, t)) :
    s.busWrite a w = (false, t) := by
  rw [State.busWrite, h]

/-- A read that something takes answers a word. -/
theorem State.busRead_eq_none_iff (s : State) (a : Word) : (s.busRead a).1 = none ↔ (s.transact a).1 = none := by
  unfold State.busRead
  generalize s.transact a = r
  obtain ⟨_ | k | _ | _ | _, t⟩ := r <;> simp

/-! ### The environment's schedule (60_exceptions.md R362) -/

theorem BusTrouble.overruns_iff {count : Nat} {t : BusTrouble} :
    t.overruns count = true ↔ ∃ n, t = .clocks n ∧ count < n := by
  cases t with
  | err => simp [BusTrouble.overruns]
  | clocks n => simp [BusTrouble.overruns]

theorem State.timesOut_iff : s.timesOut a = true ↔
    s.cfg.container = .zipSystem ∧ ∃ n, ⟨a, 0, .clocks n⟩ ∈ s.cur.fates ∧ s.cfg.busWatchdogCount < n := by
  simp only [State.timesOut, Bool.and_eq_true, decide_eq_true_eq, List.any_eq_true, beq_iff_eq, BusTrouble.overruns_iff]
  refine and_congr_right fun _ => ⟨?_, ?_⟩
  · rintro ⟨⟨_, _, _⟩, hf, ⟨rfl, rfl⟩, n, rfl, hn⟩
    exact ⟨n, hf, hn⟩
  · rintro ⟨n, hf, hn⟩
    exact ⟨_, hf, ⟨rfl, rfl⟩, n, rfl, hn⟩

/-- What a transaction leaves of a schedule entry: nothing of its own, one fewer to wait for where the address is the same. -/
theorem BusFate.passed_eq_some_iff {f g : BusFate} :
    BusFate.passed a g = some f ↔ g = if f.addr = a then { f with after := f.after + 1 } else f := by
  obtain ⟨c, m, v⟩ := f
  obtain ⟨b, n, u⟩ := g
  by_cases hb : b = a
  · cases n with
    | zero => grind [BusFate.passed]
    | succ n => grind [BusFate.passed]
  · grind [BusFate.passed]

theorem State.mem_turn_fates {f : BusFate} : f ∈ (s.turn a).cur.fates ↔
    (if f.addr = a then { f with after := f.after + 1 } else f) ∈ s.cur.fates := by
  simp only [State.turn, List.mem_filterMap, BusFate.passed_eq_some_iff, exists_eq_right]

end Sys2Proof.Machine
end

section
/-! ## LOD and STO, and where they fail (47_load_store.md R210 to R213) -/

namespace Sys2Proof.Machine

open Sys2Proof Sys2Proof.Says

variable {s t : State} {a v : Word} {cnd : Cond}

theorem State.busRead_withSet (s : State) (user : Bool) (rs : RegSet) (a : Word) :
    (s.withSet user rs).busRead a = ((s.busRead a).1, (s.busRead a).2.withSet user rs) := by
  unfold State.busRead
  rw [s.transact_withSet]
  generalize s.transact a = r
  obtain ⟨_ | k | _ | _ | _, t⟩ := r <;> cases user <;> rfl

theorem State.busRead_gie (s : State) (a : Word) : (s.busRead a).2.gie = s.gie := by
  obtain ⟨l, w, d, hr⟩ := s.busRead_frame a
  rw [hr]

theorem State.busRead_active (s : State) (a : Word) : (s.busRead a).2.active = s.active := by
  obtain ⟨l, w, d, hr⟩ := s.busRead_frame a
  rw [hr]
  rfl

/-- A bus read may come before the PC's advance or after. -/
theorem State.busRead_advance (s : State) (a : Word) :
    s.advance.busRead a = ((s.busRead a).1, (s.busRead a).2.advance) := by
  simp only [State.advance, State.withActive, State.busRead_withSet, State.busRead_active, State.busRead_gie]

theorem RegSet.mark_withPc (rs : RegSet) (c : Cause) (pc : Word) :
    ({ rs with pc := pc } : RegSet).mark c = { rs.mark c with pc := pc } := by
  cases c <;> rfl

/-- An exception saves the PC it is given: nothing is left of the PC's advance. -/
theorem State.takeException_advance (s : State) {c : Cause} (hc : c ≠ .break_) (saved : Word) (phase : Bool) :
    s.advance.takeException c saved phase = s.takeException c saved phase := by
  cases hg : s.gie with
  | false =>
    rw [State.takeException_supervisor _ _ _ _ (s.advance_gie.trans hg), State.takeException_supervisor _ _ _ _ hg]
    simp [State.advance, State.withActive, State.withSet, State.active, State.set, RegSet.mark_withPc, hg]
  | true =>
    rw [State.takeException_user _ _ _ (s.advance_gie.trans hg) hc, State.takeException_user _ _ _ hg hc]
    simp [State.enterSupervisor, State.advance, State.withActive, State.withSet, State.active, State.set,
      RegSet.mark_withPc, hg]

/-- BusError of a word that was past its own address when it failed. -/
theorem State.takeException_busError_advance (s : State) (phase : Bool) :
    s.advance.takeException .busError s.active.pc phase = busErrorEntry s phase := by
  rw [s.takeException_advance (by decide), s.takeException_busError]

/-! ### LOD with no store in flight (47_load_store.md R210) -/

section
variable (dr : Reg) (b : OpB) (hc : condHolds cnd (own s).flags = true) (hp : s.posted = none)
include hc hp

theorem exec_lod_read (hr : s.busRead (operandB s b) = (some v, t)) :
    exec (.lod dr cnd b) s = .next ((passed t).writeReg dr v) := by
  have hread : s.advance.busRead (operandB s b) = (some v, t.advance) := by rw [s.busRead_advance, hr]
  rw [exec_lod_landed dr b hc (s.drainPosted_none hp), State.loadInto_read _ _ hread]
  rfl

theorem exec_lod_failed (hr : s.busRead (operandB s b) = (none, t)) :
    exec (.lod dr cnd b) s = .next (busErrorEntry t false) := by
  have hread : s.advance.busRead (operandB s b) = (none, t.advance) := by rw [s.busRead_advance, hr]
  have hpc : s.active.pc = t.active.pc := by rw [← s.busRead_active, hr]
  rw [exec_lod_landed dr b hc (s.drainPosted_none hp), State.loadInto, hread]
  exact congrArg Host.Outcome.next (hpc ▸ t.takeException_busError_advance false)

end

/-! ### The store in flight (47_load_store.md R211, R213) -/

/-- Completing the store in flight is its bus write, with nothing in flight any more. -/
theorem State.drainPosted_some (h : s.posted = some (a, v)) :
    s.drainPosted = ({ s with posted := none } : State).busWrite a v := by
  rw [State.drainPosted, h]

/-- A bus write that errs changes no memory (00_scope.md R10). -/
theorem State.busWrite_failed_mem {w : Word} (h : s.busWrite a w = (false, t)) : t.mem = s.mem := by
  have hm : (s.transact a).2.mem = s.mem := by
    rcases s.transact_cases a with ⟨x, ht⟩ | ht <;> rw [ht] <;> rfl
  unfold State.busWrite at h
  generalize s.transact a = r at h hm
  obtain ⟨_ | k | _ | _ | _, u⟩ := r <;> simp only [Prod.mk.injEq, Bool.true_eq_false, false_and] at h
  · rw [← h.2, hm]
  · rw [← h.2, hm]

section
variable (h : s.drainPosted = (false, t))
include h

theorem State.erred_posted : t.posted = none := by
  simpa [h] using s.drainPosted_posted

theorem State.erred_mem : t.mem = s.mem := by
  cases hp : s.posted with
  | none => cases h.symm.trans (s.drainPosted_none hp)
  | some p => exact State.busWrite_failed_mem (s := { s with posted := none }) ((State.drainPosted_some hp).symm.trans h)

theorem State.erred_waitForStore (conditional : Bool) :
    s.advance.waitForStore ⟨s.active.pc, .whole, conditional⟩ = .raised (busErrorEntry t false) := by
  have hpc : s.active.pc = t.active.pc := by rw [← s.drainPosted_active, h]
  have hwait : s.advance.drainPosted = (false, t.advance) := by rw [s.drainPosted_advance, h]
  simp [State.waitForStore, hwait, hpc, State.takeException_busError_advance]

/-- A LOD or STO that waits for a store that errs does not run. -/
theorem exec_lod_erred (dr : Reg) (b : OpB) (hc : condHolds cnd (own s).flags = true) :
    exec (.lod dr cnd b) s = .next (busErrorEntry t false) := by
  show Host.Outcome.next (s.runWord true cnd fun ctx u => bodyLod dr (u.opB b) ctx u) = _
  rw [s.runWord_executed _ hc, bodyLod, State.erred_waitForStore h]
  rfl

theorem exec_sto_erred (dr : Reg) (b : OpB) (hc : condHolds cnd (own s).flags = true) :
    exec (.sto dr cnd b) s = .next (busErrorEntry t false) := by
  show Host.Outcome.next (s.runWord true cnd fun ctx u => bodySto dr (u.opB b) ctx u) = _
  rw [s.runWord_executed _ hc, bodySto, State.erred_waitForStore h]
  rfl

/-! ### When the error is delivered (60_exceptions.md R314) -/

theorem State.settleStore_delivers (hh : s.halted = false) (hd : s.cur.drain = true) :
    s.settleStore = storeErrorEntry t := by
  simp [State.settleStore, hh, hd, h, State.deliverStoreError_eq]

theorem State.settleStore_held (hh : s.halted = true) : s.settleStore = { t with storeErr := true } := by
  simp [State.settleStore, State.landHeld, hh, h]

end

/-- While the environment lets no store land, it stays in flight. -/
theorem State.settleStore_waits (hh : s.halted = false) (hd : s.cur.drain = false) : s.settleStore = s := by
  simp [State.settleStore, hh, hd]

/-- A CPU released with a store's error kept takes it before anything else. -/
theorem State.cpu_storeErr (hh : s.halted = false) (he : s.storeErr = true) (hp : s.posted = none) :
    s.cpu false = .next (storeErrorEntry s) := by
  have hsettled : (storeErrorEntry s).settleStore = storeErrorEntry s :=
    State.settleStore_none _ ((storeErrorEntry_posted (s := s)).trans hp)
  simp [State.cpu, hh, he, State.settle, State.deliverStoreError_eq, hsettled, State.stepSwitch]

end Sys2Proof.Machine

namespace Sys2Proof.Proofs

open Sys2Proof Sys2Proof.Machine Sys2Proof.Says

/-- Settles O29: a bus read that answers is written back past the instruction, and what is at the address says how it answers. -/
theorem loadReadsMemory : Obligations.LoadReadsMemory := by
  have hread : ∀ (s t : State) (cnd : Cond) (b : OpB) (v : Word), condHolds cnd (own s).flags = true → s.posted = none →
      s.busRead (operandB s b) = (some v, t) →
      (∀ n : Fin 14, exec (.lod (.gpr n) cnd b) s = .next (wrote t n v (own t).flags))
      ∧ exec (.lod .pc cnd b) s = .next (moved t v)
      ∧ exec (.lod .cc cnd b) s = .next ((passed t).writeReg .cc v) := by
    intro s t cnd b v hc hp hr
    have hexec := fun dr => exec_lod_read dr b hc hp hr
    exact ⟨fun n => by rw [hexec, writeReg_gpr_passed], by rw [hexec, writeReg_pc_passed], hexec .cc⟩
  refine ⟨fun s cnd b hc hp hr => hread s s cnd b _ hc hp (s.busRead_ram _ hr), hread, ?_, ?_, ?_⟩
  · intro s a errs h
    rw [State.busRead, State.transact_answersAs h]
  · intro s a h
    exact ⟨_, by rw [State.busRead, State.transact_answersAs h]; rfl⟩
  · intro s k hb hr hc
    obtain ⟨i, hi⟩ := State.transact_register hb hr hc
    exact ⟨_, by rw [State.busRead, hi]⟩

/-- Settles O30: a read fails where its transaction does, and a transaction for the three causes of `BusFails`. -/
theorem loadBusErrorIsTaken : Obligations.LoadBusErrorIsTaken := by
  have hfails : ∀ (s : State) (a : Word), s.cfg.periphBase = 0xc0000000#32 → BusFails s a →
      s.busRead a = (none, failed s a) :=
    fun s a hb h => State.busRead_of_transact_none (State.transact_fails hb h)
  refine ⟨fun s t dr cnd b hc hp hr => exec_lod_failed dr b hc hp hr,
    fun s dr cnd b hb hc hp h => exec_lod_failed dr b hc hp (hfails s _ hb h),
    fun s a hb => ⟨(s.busRead_eq_none_iff a).trans (State.transact_eq_none_iff hb), hfails s a hb⟩, ?_, ?_,
    fun s a => State.timesOut_iff, fun s a => ⟨⟨_, rfl⟩, fun f => State.mem_turn_fates⟩⟩
  · rintro cfg a hbones ha
    refine .inr ⟨ha, fun k ⟨hsystem, _⟩ => ?_⟩
    cases hbones.symm.trans hsystem
  · intro s a h
    simp [failed, h]

/-- Settles O31: STO posts once nothing is in flight, and what is at the address says what the bus write does. -/
theorem storePostsOneWord : Obligations.StorePostsOneWord := by
  refine ⟨fun s dr cnd b hc hp => exec_sto_landed dr b hc (s.drainPosted_none hp), ?_, ?_, ?_⟩
  · intro s a v hp hr
    refine ⟨_, State.drainPosted_ram hp hr, ?_, fun x hx => ?_⟩
    · rw [Memory.fetch_write, if_pos rfl]
    · rw [Memory.fetch_write, if_neg hx]
  · intro s k v hp hb hr hc
    obtain ⟨i, hi⟩ := State.transact_register (s := { s with posted := none }) hb hr hc
    rw [State.drainPosted_some hp, State.busWrite, hi]
    exact ⟨_, rfl, rfl⟩
  · intro s a v hp h
    rw [State.drainPosted_some hp]
    rcases h with h | h
    · rw [State.busWrite, State.transact_answersAs (s := { s with posted := none }) h]
    · rw [State.busWrite, State.transact_answersAs (s := { s with posted := none }) h]
      rfl

/-- Settles O34: a store errs where its transaction fails or ROM refuses it, and the error is taken where it is met. -/
theorem storeBusErrorArrivesLate : Obligations.StoreBusErrorArrivesLate := by
  refine ⟨?_, ?_, fun s => State.cpu_storeErr⟩
  · intro s a v hp hb h
    rw [State.drainPosted_some hp]
    by_cases hf : BusFails { s with posted := none } a
    · exact State.busWrite_of_transact_none v (State.transact_fails hb hf)
    · obtain ⟨hspace, hkind⟩ := h.resolve_left hf
      have ht : ({ s with posted := none } : State).timesOut a = false := by simpa using fun ht => hf (.inl ht)
      rw [failed_of_not_timesOut ht, State.busWrite, State.transact_of_not_fails hf]
      simp [targetAt, hspace, hkind]
  · exact fun s t h => ⟨State.erred_posted h, State.erred_mem h, State.settleStore_delivers h,
      State.settleStore_waits, State.settleStore_held h,
      fun dr cnd b hc => ⟨exec_lod_erred h dr b hc, exec_sto_erred h dr b hc⟩⟩

end Sys2Proof.Proofs
end

section
/-! ## Timers (60_exceptions.md R360) -/

namespace Sys2Proof.Machine

open Sys2Proof Sys2Proof.Says

variable {t : Timer}

theorem Timer.tick_counting (h : 1 < t.value.toNat) : t.tick = ({ t with value := t.value - 1#31 }, false) := by
  have hne : t.value ≠ 0#31 := by bv_omega
  have hnext : t.value - 1#31 ≠ 0#31 := by bv_omega
  rw [Timer.tick, if_neg hne, if_neg hnext]

theorem Timer.tick_last (h : t.value.toNat = 1) :
    t.tick = ({ t with value := if t.reload then t.interval else 0#31 }, true) := by
  have hne : t.value ≠ 0#31 := by bv_omega
  have hnext : t.value - 1#31 = 0#31 := by bv_omega
  rw [Timer.tick, if_neg hne, if_pos hnext]

theorem ticks_succ (k : Nat) : ∀ t : Timer, ticks (k + 1) t = (ticks k t).tick.1 := by
  induction k with
  | zero => exact fun _ => rfl
  | succ k ih => exact fun t => ih t.tick.1

/-- While the count has not run out, each clock takes one from it and changes nothing else. -/
theorem ticks_counting (k : Nat) : ∀ {t : Timer}, k < t.value.toNat →
    ticks k t = { t with value := t.value - BitVec.ofNat 31 k } := by
  induction k with
  | zero =>
    intro t _
    simp [ticks]
  | succ k ih =>
    intro t h
    have hprev : ({ t with value := t.value - 1#31 } : Timer).value.toNat = t.value.toNat - 1 := by bv_omega
    rw [ticks, Timer.tick_counting (by omega), ih (hprev ▸ by omega)]
    congr 1
    bv_omega

theorem ticks_counting_toNat {k : Nat} (h : k < t.value.toNat) : (ticks k t).value.toNat = t.value.toNat - k := by
  have hlt := t.value.isLt
  rw [ticks_counting k h]
  bv_omega

/-- A counting timer pulses exactly at its last clock. -/
theorem Timer.tick_pulse_iff (h : 0 < t.value.toNat) : t.tick.2 = true ↔ t.value.toNat = 1 := by
  rcases Nat.eq_or_lt_of_le h with h1 | h1
  · simp [Timer.tick_last h1.symm, h1.symm]
  · simp [Timer.tick_counting h1, h1.ne']

/-- After its whole count a timer stands at the interval or at 0. -/
theorem ticks_all (h : 0 < t.value.toNat) :
    (ticks t.value.toNat t).value = if t.reload then t.interval else 0#31 := by
  obtain ⟨m, hm⟩ : ∃ m, t.value.toNat = m + 1 := ⟨t.value.toNat - 1, by omega⟩
  have hone : (ticks m t).value.toNat = 1 := by
    rw [ticks_counting_toNat (by omega)]
    omega
  rw [hm, ticks_succ, Timer.tick_last hone, ticks_counting m (by omega)]

end Sys2Proof.Machine

namespace Sys2Proof.Proofs

open Sys2Proof Sys2Proof.Machine Sys2Proof.Says

/-- Settles O54: a counting timer loses one at each clock, and the last clock is the one that pulses. -/
theorem timerCountsDown : Obligations.TimerCountsDown := by
  refine ⟨fun w k hk => ?_, fun w hw => ?_, fun _ => Timer.tick_stopped⟩
  · have hvalue : (ticks k (Timer.write w)).value.toNat = (w.extractLsb' 0 31).toNat - k :=
      ticks_counting_toNat (t := Timer.write w) hk
    refine ⟨hvalue, ?_⟩
    rw [Timer.tick_pulse_iff (by omega), hvalue]
    omega
  · have hpos : 0 < (Timer.write w).value.toNat := Nat.pos_of_ne_zero fun h0 => hw (BitVec.eq_of_toNat_eq h0)
    exact ticks_all hpos

end Sys2Proof.Proofs
end

section
/-! ## The Jiffies (60_exceptions.md R363) -/

namespace Sys2Proof.Machine

open Sys2Proof

theorem Jiffies.tick_now (j : Jiffies) : j.tick.1.now = j.now + 1#32 := by
  unfold Jiffies.tick
  split <;> rfl

/-- A clock pulses where it reaches the armed time, which is armed no longer. -/
theorem Jiffies.tick_reaches (j : Jiffies) :
    (j.tick.2 = true ↔ j.armed = true ∧ j.now + 1#32 = j.when_) ∧ (j.tick.2 = true → j.tick.1.armed = false) := by
  unfold Jiffies.tick
  split
  next h => simpa using h
  next h => simpa using h

theorem Jiffies.write_past {j : Jiffies} {w : Word} (h : (w - j.now).toInt ≤ 0) : j.write w = (j, true) :=
  if_pos (BitVec.sle_iff_toInt_le.mpr h)

/-- A time in the future is armed where none is armed or the armed one is later. -/
theorem Jiffies.write_future {j : Jiffies} {w : Word} (h : 0 < (w - j.now).toInt) :
    j.write w = if j.armed = false ∨ (w - j.when_).toInt < 0 then ({ j with when_ := w, armed := true }, false)
      else (j, false) := by
  have hnot : ¬(w - j.now).sle 0#32 = true := by
    rw [BitVec.sle_iff_toInt_le, BitVec.toInt_zero]
    omega
  simp [Jiffies.write, hnot, BitVec.slt_iff_toInt_lt]

theorem Jiffies.write_now (j : Jiffies) (w : Word) : (j.write w).1.now = j.now := by
  unfold Jiffies.write
  split
  · rfl
  · split <;> rfl

end Sys2Proof.Machine

namespace Sys2Proof.Proofs

open Sys2Proof Sys2Proof.Machine Sys2Proof.Says

/-- Settles O55: a written time is past or in the future, and a future one replaces none or a later one. -/
theorem jiffiesKeepTheNearestTime : Obligations.JiffiesKeepTheNearestTime := by
  refine ⟨fun j => ⟨j.tick_now, j.tick_reaches⟩, fun j w => ?_⟩
  rcases lt_or_ge 0 (w - j.now).toInt with hfuture | hpast
  · have hnot : ¬(w - j.now).toInt ≤ 0 := not_le.mpr hfuture
    rw [Jiffies.write_future hfuture]
    split
    next => exact ⟨⟨nofun, fun h => absurd h hnot⟩, nofun, fun _ => ⟨rfl, rfl, rfl⟩⟩
    next h =>
      have harmed : j.armed = true := by simpa using (not_or.mp h).1
      exact ⟨⟨nofun, fun h => absurd h hnot⟩, nofun, fun _ => ⟨harmed, rfl, rfl⟩⟩
  · rw [Jiffies.write_past hpast]
    exact ⟨⟨fun _ => hpast, fun _ => rfl⟩, fun _ => rfl, fun h => absurd hpast (not_le.mpr h)⟩

end Sys2Proof.Proofs
end

section
/-! ## The accounting counters (60_exceptions.md R364, R365) -/

namespace Sys2Proof.Machine

open Sys2Proof

theorem counterAdd_fst (c : Word) (n : Nat) : (counterAdd c n).1 = c + BitVec.ofNat 32 n := by
  rw [counterAdd, BitVec.ofNat_add, BitVec.ofNat_toNat, BitVec.setWidth_eq]

theorem counterAdd_snd (c : Word) (n : Nat) : (counterAdd c n).2 = true ↔ 2 ^ 32 ≤ c.toNat + n := decide_eq_true_iff

section
variable {cfg : Config} (hc : cfg.includeCounters = true)
include hc

/-- Each counter counts its own event. -/
theorem Periph.count_counters (p : Periph) (events : Vector Nat 8) (k : Nat) (hk : k < 8) :
    (p.count cfg events).counters[k] = p.counters[k] + BitVec.ofNat 32 events[k] := by
  simp [Periph.count, hc, counterAdd_fst]

theorem Periph.clock_counters (p : Periph) (gie : Bool) (ext : BitVec 24) (k : Nat) (hk : k < 8) :
    (p.clock cfg gie ext).1.counters[k] = p.counters[k] + BitVec.ofNat 32 (counterEvents gie 1 0 0 0)[k] :=
  p.count_counters hc _ k hk

end

/-- A clock at which the watchdog does not expire changes the peripherals alone. -/
theorem State.clock_zipSystem {s : State} (hz : s.cfg.container = .zipSystem) (hw : s.per.wdt.value = 0#31) :
    s.clock = { s with per := (s.per.clock s.cfg s.gie s.extLines).1 } := by
  have hno : (s.per.clock s.cfg s.gie s.extLines).2 = false := congrArg Prod.snd (Timer.tick_stopped hw)
  simp [State.clock, hz, hno]

theorem State.countEvents_zipSystem {s : State} (hz : s.cfg.container = .zipSystem) (user : Bool)
    (memStalls fetchStalls insns : Nat) : s.countEvents user memStalls fetchStalls insns =
      { s with per := s.per.count s.cfg (counterEvents user 0 memStalls fetchStalls insns) } := by
  simp [State.countEvents, hz]

end Sys2Proof.Machine

namespace Sys2Proof.Proofs

open Sys2Proof Sys2Proof.Machine Sys2Proof.Says

/-- Settles O56: a clock and an issued word are each one batch of events, and each counter adds its own. -/
theorem countersCount : Obligations.CountersCount := by
  refine ⟨fun s hz hc hw => ?_, fun s user hz hc => ?_, fun c n => ⟨counterAdd_fst c n, counterAdd_snd c n⟩⟩
  · simp only [State.clock_zipSystem hz hw, Periph.clock_counters hc]
    by_cases hg : s.gie = true <;> simp [counterEvents, hg]
  · simp only [State.countEvents_zipSystem hz, Periph.count_counters hc]
    cases user <;> simp [counterEvents]

end Sys2Proof.Proofs
end

section
/-! ## The interrupt controllers (60_exceptions.md R356, R358) -/

namespace Sys2Proof.Machine

open Sys2Proof

/-! ### Reads and writes -/

section
variable (p : Pic) (w : Word) (level : BitVec 15) {i : Nat} (hi : i < 15)
include hi

theorem Pic.write_st_getLsbD :
    (p.write w level).st.getLsbD i = ((p.st.getLsbD i && !w.getLsbD i) || level.getLsbD i) := by
  simp [Pic.write, hi]

theorem Pic.write_en_getLsbD : (p.write w level).en.getLsbD i =
    if w.getLsbD 31 then p.en.getLsbD i || w.getLsbD (16 + i) else p.en.getLsbD i && !w.getLsbD (16 + i) := by
  unfold Pic.write
  dsimp only
  split
  · simp [hi]
  · simp [hi]

theorem Pic.read_en : p.read.getLsbD (16 + i) = p.en.getLsbD i := by
  have hsub : 16 + i - 15 - 1 = i := by omega
  have hlow : ¬16 + i < 15 := by omega
  have hany : ¬16 + i - 15 < 1 := by omega
  simp only [Pic.read, BitVec.getLsbD_append, if_neg hlow, if_neg hany, hsub, if_pos hi]

theorem Pic.read_st : p.read.getLsbD i = p.st.getLsbD i := by
  rw [Pic.read, BitVec.getLsbD_append, if_pos hi]

end

theorem Pic.read_mie (p : Pic) : p.read.getLsbD 31 = p.mie := by
  simp only [Pic.read, BitVec.getLsbD_append]
  simp

theorem Pic.read_any (p : Pic) : p.read.getLsbD 15 = p.any := by
  simp only [Pic.read, BitVec.getLsbD_append]
  simp

/-! ### The primary controller's lines (R358) -/

theorem Pic.trip_getLsbD (p : Pic) (lines : BitVec 15) (i : Nat) :
    (p.trip lines).st.getLsbD i = (p.st.getLsbD i || lines.getLsbD i) :=
  BitVec.getLsbD_or

section
variable (dma jiffies tmrc tmrb tmra : Bool)

theorem picPulse_jiffies : (picPulse dma jiffies tmrc tmrb tmra).getLsbD 1 = jiffies := by
  simp only [picPulse, BitVec.getLsbD_append]
  simp

theorem picPulse_tmrc : (picPulse dma jiffies tmrc tmrb tmra).getLsbD 2 = tmrc := by
  simp only [picPulse, BitVec.getLsbD_append]
  simp

theorem picPulse_tmrb : (picPulse dma jiffies tmrc tmrb tmra).getLsbD 3 = tmrb := by
  simp only [picPulse, BitVec.getLsbD_append]
  simp

theorem picPulse_tmra : (picPulse dma jiffies tmrc tmrb tmra).getLsbD 4 = tmra := by
  simp only [picPulse, BitVec.getLsbD_append]
  simp

end

theorem picLevel_any (any : Bool) (ext : BitVec 24) : (picLevel any ext).getLsbD 5 = any := by
  simp only [picLevel, BitVec.getLsbD_append]
  simp

theorem picLevel_ext (any : Bool) (ext : BitVec 24) {i : Nat} (hi : i < 9) :
    (picLevel any ext).getLsbD (6 + i) = ext.getLsbD i := by
  have hsub : 6 + i - 5 - 1 = i := by omega
  have hlow : ¬6 + i < 5 := by omega
  have hany : ¬6 + i - 5 < 1 := by omega
  simp only [picLevel, BitVec.getLsbD_append, if_neg hlow, if_neg hany, hsub, BitVec.getLsbD_extractLsb']
  simp [hi]

/-- After a clock a line has tripped if it had before, if a peripheral pulsed it or if a wire holds it. -/
theorem Periph.clock_pic_getLsbD (p : Periph) (cfg : Config) (gie : Bool) (ext : BitVec 24) (i : Nat) :
    (p.clock cfg gie ext).1.pic.st.getLsbD i = (p.pic.st.getLsbD i
      || (picPulse false p.jiff.tick.2 p.tmrc.tick.2 p.tmrb.tick.2 p.tmra.tick.2).getLsbD i
      || (picLevel (p.clock cfg gie ext).1.ctric.any ext).getLsbD i) := by
  simp only [Periph.clock, Pic.trip_getLsbD]

end Sys2Proof.Machine

namespace Sys2Proof.Proofs

open Sys2Proof Sys2Proof.Machine Sys2Proof.Says

/-- Settles O53: the controller's fields bit by bit, and at a clock what pulses or holds each line. -/
theorem interruptController : Obligations.InterruptController := by
  refine ⟨⟨fun p w level => ⟨rfl, fun i hi => ⟨p.write_st_getLsbD w level hi, p.write_en_getLsbD w level hi⟩⟩,
    fun p => ⟨p.read_mie, p.read_any, fun i hi => ⟨p.read_en hi, p.read_st hi⟩⟩⟩, fun p cfg gie ext => ?_⟩
  simp only [Periph.clock_pic_getLsbD, Bool.or_eq_true]
  refine ⟨fun i _ h => .inl (.inl h), fun h => ?jiffies, fun h => ?tmrc, fun h => ?tmrb, fun h => ?tmra,
    fun h => .inr ((picLevel_any _ _).trans h), fun i hi h => .inr ((picLevel_ext _ _ hi).trans h)⟩
  case jiffies => exact .inl (.inr ((picPulse_jiffies ..).trans h))
  case tmrc => exact .inl (.inr ((picPulse_tmrc ..).trans h))
  case tmrb => exact .inl (.inr ((picPulse_tmrb ..).trans h))
  case tmra => exact .inl (.inr ((picPulse_tmra ..).trans h))

end Sys2Proof.Proofs
end

section
/-! ## DMACTRL and its key (60_exceptions.md R367, R368) -/

namespace Sys2Proof.Machine

open Sys2Proof

variable {d : Dma} {w : Word}

theorem Dma.writeCtrl_keyless (h : w.extractLsb' 16 12 ≠ 0xfed#12) :
    d.writeCtrl w = ({ d with err := false }, false) := by
  simp [Dma.writeCtrl, h]

/-- The key starts an idle controller on the values of its registers. -/
theorem Dma.writeCtrl_key (hd : d.active = false) (hk : w.extractLsb' 16 12 = 0xfed#12) : (d.writeCtrl w).1 =
    { d with
      err := false
      noIncSrc := w.getLsbD 29
      noIncDst := w.getLsbD 28
      trigger := w.getLsbD 15
      line := w.extractLsb' 10 5
      chunk := w.extractLsb' 0 10
      active := d.len != 0#32
      remaining := d.len
      curSrc := d.src
      curDst := d.dst
      buffer := [] } := by
  simp [Dma.writeCtrl, hd, hk]

end Sys2Proof.Machine

namespace Sys2Proof.Proofs

open Sys2Proof Sys2Proof.Machine Sys2Proof.Says

/-- Settles O57: the key and the running transfer decide whether a write is taken. -/
theorem dmaNeedsItsKey : Obligations.DmaNeedsItsKey := by
  refine ⟨fun d w hd hk hlen => ?_, fun d w => Dma.writeCtrl_keyless, fun d w hd => ⟨if_pos hd, if_pos hd, if_pos hd⟩⟩
  rw [Dma.writeCtrl_key hd hk]
  exact ⟨bne_iff_ne.mpr hlen, rfl, rfl, rfl, rfl, rfl, rfl, rfl, rfl, rfl⟩

end Sys2Proof.Proofs
end

section
/-! ## Reset (70_reset_and_hazards.md R400 to R404) -/

namespace Sys2Proof.Machine

open Sys2Proof Sys2Proof.Says

variable {s : State}

/-! ### The store in flight at a reset -/

/-- No register write sets the Jiffies counter. -/
theorem Periph.write_jiff_now (p : Periph) (cfg : Config) (ext : BitVec 24) (k : Fin 20) (w : Word) :
    (p.write cfg ext k w).jiff.now = p.jiff.now := by
  have hcases : (p.write cfg ext k w).jiff = p.jiff ∨ (p.write cfg ext k w).jiff = (p.jiff.write w).1 := by
    unfold Periph.write
    split <;> simp
  rcases hcases with h | h
  · rw [h]
  · rw [h, Jiffies.write_now]

theorem State.drainPosted_jiff_now (s : State) : s.drainPosted.2.per.jiff.now = s.per.jiff.now := by
  cases hp : s.posted with
  | none => rw [s.drainPosted_none hp]
  | some p =>
    rw [State.drainPosted_some hp]
    rcases (({ s with posted := none } : State).busWrite_mem_per p.1 p.2).2 with ⟨v, h⟩ | ⟨k, h⟩
    · rw [h]
    · rw [h, Periph.write_jiff_now]

/-- Whether the store in flight has reached memory before a reset or not: of the rest of the machine only the peripherals, the
count of free values and what is left of the schedule can differ, and the Jiffies counter does not. -/
theorem State.landedOrLost_frame (s : State) : ∃ m p d l,
    (if s.cur.drain then s.drainPosted.2 else s) =
      { s with posted := if s.cur.drain then none else s.posted, mem := m, per := p, draws := d, cur := { s.cur with fates := l } }
    ∧ (m = s.mem ∨ m = s.drainPosted.2.mem) ∧ p.jiff.now = s.per.jiff.now ∧ (s.posted = none → p = s.per) := by
  split
  · obtain ⟨m, p, d, l, h⟩ := s.drainPosted_masters
    refine ⟨m, p, d, l, h, .inr (by rw [h]), ?_, fun hp => ?_⟩
    · rw [← s.drainPosted_jiff_now, h]
    · simpa [s.drainPosted_none hp] using (congrArg State.per h).symm
  · exact ⟨s.mem, s.per, s.draws, s.cur.fates, rfl, .inl rfl, rfl, fun _ => rfl⟩

/-! ### The clocks of a step with `i_rst` high (R404) -/

theorem Periph.clock_wdt_stopped {p : Periph} (h : p.wdt.value = 0#31) (cfg : Config) (gie : Bool) (ext : BitVec 24) :
    (p.clock cfg gie ext).1.wdt.value = 0#31 :=
  (congrArg (·.1.value) (Timer.tick_stopped h)).trans h

/-- With the watchdog stopped, clocks reach the peripherals alone. -/
theorem State.clocks_frame (n : Nat) : ∀ {s : State}, s.per.wdt.value = 0#31 →
    State.clocks n s = { s with per := (State.clocks n s).per } := by
  induction n with
  | zero => exact fun _ => rfl
  | succ n ih =>
    intro s hw
    cases hz : s.cfg.container with
    | zipSystem =>
      rw [State.clocks, State.clock_zipSystem hz hw]
      exact ih (Periph.clock_wdt_stopped hw _ _ _)
    | zipBones =>
      have hclock : s.clock = s := by simp [State.clock, hz]
      rw [State.clocks, hclock]
      exact ih hw

theorem add_ofNat_succ (w : Word) (n : Nat) : w + 1#32 + BitVec.ofNat 32 n = w + BitVec.ofNat 32 (n + 1) := by
  bv_omega

/-- The Jiffies and MTASK count each of the clocks. -/
theorem State.clocks_count (n : Nat) : ∀ {s : State}, s.cfg.container = .zipSystem → s.per.wdt.value = 0#31 →
    (State.clocks n s).per.jiff.now = s.per.jiff.now + BitVec.ofNat 32 n
    ∧ (s.cfg.includeCounters = true →
      (State.clocks n s).per.counters[0] = s.per.counters[0] + BitVec.ofNat 32 n) := by
  induction n with
  | zero =>
    intro s _ _
    simp [State.clocks]
  | succ n ih =>
    intro s hz hw
    rw [State.clocks, State.clock_zipSystem hz hw]
    obtain ⟨hnow, hcount⟩ := ih (s := { s with per := (s.per.clock s.cfg s.gie s.extLines).1 }) hz
      (Periph.clock_wdt_stopped hw _ _ _)
    refine ⟨?_, fun hc => ?_⟩
    · rw [hnow, ← add_ofNat_succ, ← Jiffies.tick_now]
      rfl
    · have hone : (counterEvents s.gie 1 0 0 0)[0] = 1 := by
        unfold counterEvents
        split <;> rfl
      rw [hcount hc, ← add_ofNat_succ, s.per.clock_counters hc, hone]

theorem step_reset (h : s.loadEnv.cur.reset = true) :
    step s = .next (State.clocks (s.loadEnv.cur.ticks + 1) s.loadEnv.warmReset) := if_pos h

theorem State.loadEnv_cfg (s : State) : s.loadEnv.cfg = s.cfg := by
  unfold State.loadEnv
  split <;> rfl

theorem State.warmReset_cfg (s : State) : s.warmReset.cfg = s.cfg := by
  obtain ⟨m, p, d, l, ht, _⟩ := s.landedOrLost_frame
  unfold State.warmReset
  rw [ht]

/-! ### The command bits of ZIPCTRL (60_exceptions.md R372) -/

/-- What bits 8 and 10 of a write of ZIPCTRL do, once its address, reset and cache bits have acted. -/
def State.command (s : State) (w : Word) : State × Bool :=
  if w.getLsbD 8 then ({ s with halted := false }, true)
  else if w.getLsbD 10 then (s.debugHalt, false)
  else ({ s with halted := false }, false)

section
variable {w : Word}

theorem State.command_step (h8 : w.getLsbD 8 = true) : s.command w = ({ s with halted := false }, true) := if_pos h8

theorem State.command_halt (h8 : w.getLsbD 8 = false) (h10 : w.getLsbD 10 = true) :
    s.command w = (s.debugHalt, false) := by
  rw [State.command, h8, h10]
  rfl

theorem State.command_release (h8 : w.getLsbD 8 = false) (h10 : w.getLsbD 10 = false) :
    s.command w = ({ s with halted := false }, false) := by
  rw [State.command, h8, h10]
  rfl

theorem State.writeCtrl_reset (h6 : w.getLsbD 6 = true) (h11 : w.getLsbD 11 = false) :
    s.writeCtrl w = ({ s with dbgAddr := w.extractLsb' 0 6 } : State).warmReset.command w := by
  rw [State.writeCtrl, h6, h11]
  rfl

/-- Without a reset, bits 5..0 and 11 act before the commands. -/
theorem State.writeCtrl_plain (h6 : w.getLsbD 6 = false) : s.writeCtrl w =
    ({ s with dbgAddr := w.extractLsb' 0 6, icache := if w.getLsbD 11 then [] else s.icache } : State).command w := by
  rw [State.writeCtrl, h6]
  cases w.getLsbD 11 <;> rfl

end

/-! ### The reset of the debug port and of the watchdog -/

/-- A hold right after a reset finds nothing in flight and PHASE clear. -/
theorem State.debugHalt_warmReset (s : State) : s.warmReset.debugHalt = { s.warmReset with halted := true } := by
  unfold State.debugHalt
  split
  next h => rw [← h]
  next => rw [State.landHeld_none _ ((State.withActive_posted _ _).trans rfl)]; rfl

theorem State.clock_expired (hz : s.cfg.container = .zipSystem) (hw : s.per.wdt.value = 1#31) :
    s.clock = ({ s with per := (s.per.clock s.cfg s.gie s.extLines).1 } : State).warmReset := by
  have hexpires : (s.per.clock s.cfg s.gie s.extLines).2 = true :=
    congrArg Prod.snd (Timer.tick_last (t := s.per.wdt) (by rw [hw]; rfl))
  simp [State.clock, hz, hexpires]

end Sys2Proof.Machine

namespace Sys2Proof.Proofs

open Sys2Proof Sys2Proof.Machine Sys2Proof.Says

/-- Settles O48: the table is read off the state after power-on. -/
theorem resetState : Obligations.ResetState := by
  refine ⟨rfl, fun cfg => ⟨rfl, rfl, rfl, rfl, rfl, rfl, rfl, rfl, fun user => ?_, rfl, rfl, rfl, rfl, rfl, rfl, rfl, rfl, rfl, rfl,
    rfl, rfl, rfl, rfl⟩⟩
  cases user <;> exact ⟨rfl, rfl, rfl, rfl, rfl⟩

/-- Settles O51: after power-on memory and cache are empty, nothing is in flight and no cause bit is set. -/
theorem resetHasTheInvariant : Obligations.ResetHasTheInvariant where
  mem_wf := Memory.wf_reset
  icache_wf := rfl
  icache_room := Nat.zero_le _
  icache_absent := fun _ => rfl
  lock_range := Nat.zero_le _
  fp_never := ⟨rfl, rfl⟩
  halted_settled := fun _ => rfl
  halted_unlocked := fun _ => rfl
  error_held := nofun
  asleep_halted := nofun
  user_no_cause := nofun
  watchdog_oneshot := rfl
  dma_idle_empty := fun _ => rfl

/-- Settles O49: the reset's table holds of whatever the store in flight has left, and a stopped watchdog lets the clocks of the
step count through. -/
theorem warmReset : Obligations.WarmReset := by
  refine ⟨fun s => ?_, fun s r t hreset hr ht => ?_, fun s w h6 h8 h11 => ?_, fun s => State.clock_expired⟩
  · obtain ⟨m, p, d, l, hlanded, hmem, hnow, hper⟩ := s.landedOrLost_frame
    have hcounters (hp : s.posted = none) : p.counters = s.per.counters := by rw [hper hp]
    unfold State.warmReset
    rw [hlanded]
    exact ⟨rfl, rfl, rfl, rfl, rfl, rfl, rfl, rfl, rfl, rfl, rfl, rfl, rfl, hnow, fun hp => hcounters hp,
      hmem, rfl, rfl, rfl, rfl, rfl, rfl, rfl, rfl, rfl⟩
  · have hcfg : r.cfg = s.cfg := by rw [hr, State.warmReset_cfg, State.loadEnv_cfg]
    have hw : r.per.wdt.value = 0#31 := by rw [hr]; rfl
    refine ⟨by rw [step_reset hreset, ht, hr], ?_, fun hz => ?_⟩
    · rw [ht]
      exact State.clocks_frame _ hw
    · rw [ht, ← hcfg]
      exact State.clocks_count _ (hcfg ▸ hz) hw
  · rw [State.writeCtrl_reset h6 h11]
    cases h10 : w.getLsbD 10 with
    | false => exact State.command_release h8 h10
    | true => rw [State.command_halt h8 h10, State.debugHalt_warmReset]

end Sys2Proof.Proofs
end

section
/-! ## What an instruction answers (40_execution_common.md R140; 48_vliw.md R232) -/

namespace Sys2Proof.Machine

open Sys2Proof Sys2Proof.Says

/-- Every instruction answers a next state, but for the VLIW words that R232 refuses. -/
theorem exec_cases (i : Instr) (s : State) : (∃ t, exec i s = .next t)
    ∨ ∃ c2 cnd f g r, i = .vliw c2 cnd f g ∧ vliwRefusal f g = some r ∧ exec i s = .refused r := by
  cases i with
  | vliw c2 cnd f g =>
    simp only [exec, execVliw]
    split
    · cases hr : vliwRefusal f g with
      | none => exact .inl ⟨_, rfl⟩
      | some r => exact .inr ⟨c2, cnd, f, g, r, rfl, hr, rfl⟩
    · exact .inl ⟨_, rfl⟩
  | _ => exact .inl ⟨_, rfl⟩

theorem exec_ne_fault (i : Instr) (s : State) (r : Fault) : exec i s ≠ .fault r := by
  rcases exec_cases i s with ⟨t, h⟩ | ⟨_, _, _, _, _, _, _, h⟩ <;> simp [h]

end Sys2Proof.Machine

namespace Sys2Proof.Proofs

open Sys2Proof Sys2Proof.Machine Sys2Proof.Says

/-- Settles O46: of all instructions only VLIW may answer something else than a next state. -/
theorem onlyVliwIsRefused : Obligations.OnlyVliwIsRefused := by
  refine fun i s => ⟨exec_ne_fault i s, fun r hr => ?_⟩
  rcases exec_cases i s with ⟨t, h⟩ | ⟨c2, cnd, f, g, r', hi, hrefusal, h⟩
  · cases h.symm.trans hr
  · cases h.symm.trans hr
    exact ⟨c2, cnd, f, g, hi, hrefusal⟩

end Sys2Proof.Proofs
end

section
/-! ## A denominator of 0 (44_divide.md R190, R191; 60_exceptions.md R326) -/

namespace Sys2Proof.Machine

open Sys2Proof Sys2Proof.Says

theorem State.takeException_divZero (s : State) (phase : Bool) :
    s.takeException .divZero s.active.pc phase = divZeroEntry s phase := by
  cases hg : s.gie with
  | false =>
    rw [s.takeException_supervisor _ _ _ hg]
    simp [divZeroEntry, hg, State.active, RegSet.mark]
  | true =>
    rw [s.takeException_user _ _ hg (by decide)]
    simp [divZeroEntry, hg, State.active]
    rfl

/-- A divide meets its denominator past its own address, where the exception is taken. -/
theorem divideByZero_passed (s : State) (slot : Slot) (conditional : Bool) :
    (passed s).divideByZero ⟨(own s).pc, slot, conditional⟩ = divZeroEntry s (decide (slot = .first)) :=
  (s.takeException_advance (by decide) _ _).trans (s.takeException_divZero _)

end Sys2Proof.Machine

namespace Sys2Proof.Proofs

open Sys2Proof Sys2Proof.Machine Sys2Proof.Says

/-- Settles O22: both divides look at the denominator first. -/
theorem divideByZeroIsTaken : Obligations.DivideByZeroIsTaken := by
  intro s dr cnd b hdiv hc hb
  have hdivu := exec_std_executed (op := .divu) hdiv hc dr b
  have hdivs := exec_std_executed (op := .divs) hdiv hc dr b
  rw [hb] at hdivu hdivs
  have hraised := divideByZero_passed s .whole (decide (cnd ≠ .always))
  exact ⟨hdivu.trans (congrArg _ hraised), hdivs.trans (congrArg _ hraised)⟩

end Sys2Proof.Proofs
end

section
/-! ## VLIW words: which are illegal and which are refused (48_vliw.md R222, R230, R232) -/

namespace Sys2Proof.Machine

open Sys2Proof Sys2Proof.Says

variable {s : State} {f g : Half}

theorem State.halfLegal_iff (h : Half) : s.halfLegal h = true ↔ Built s h := by
  cases h with
  | std op dr b => cases op <;> simp [State.halfLegal, Built, State.hasMultiply]
  | mov dr b => simp [State.halfLegal, Built]
  | ldi dr low imm => simp [State.halfLegal, Built]
  | group bit sel rsvd => simp [State.halfLegal, Built]
  | unbuilt sel dr b => simp [State.halfLegal, Built]

/-- A word with an illegal half is illegal, whatever else R232 says of it. -/
theorem exec_vliw_illegal (h : ¬Built s f ∨ ¬Built s g) (c2 : Bool) (cnd : Cond2) :
    exec (.vliw c2 cnd f g) s = .next (illegalEntry s) := by
  have hnot : ¬(s.cfg.optVliw && s.halfLegal f && s.halfLegal g) = true := by
    simp only [Bool.and_eq_true, State.halfLegal_iff]
    tauto
  rw [exec, execVliw, if_neg hnot, State.takeException_illegal]

/-- A word of built halves runs, unless R232 refuses it. -/
theorem exec_vliw_built (hv : s.cfg.optVliw = true) (hf : Built s f) (hg : Built s g) (c2 : Bool) (cnd : Cond2) :
    exec (.vliw c2 cnd f g) s =
      match vliwRefusal f g with
      | some r => .refused r
      | none => .next ((passed s).runVliw (own s).pc c2 cnd f g) := by
  rw [exec, execVliw, if_pos (by simp [hv, State.halfLegal_iff, hf, hg])]
  rfl

/-! ### The grounds of a refusal, half by half -/

theorem halfWritesPcOrCc_iff (hf : Built s f) : halfWritesPcOrCc f = true ↔ ¬AdmittedFirst f := by
  cases f with
  | std op dr b => cases op <;> simp [halfWritesPcOrCc, AdmittedFirst]
  | mov dr b => simp [halfWritesPcOrCc, AdmittedFirst]
  | ldi dr low imm => simp [halfWritesPcOrCc, AdmittedFirst]
  | group bit sel rsvd => simp [halfWritesPcOrCc, AdmittedFirst]
  | unbuilt sel dr b => exact hf.elim

theorem halfBreakOrLock_iff (hf : Built s f) :
    halfBreakOrLock f = true ↔ ∃ bit sel rsvd, f = .group bit sel rsvd ∧ sel ≠ 0#3 := by
  cases f with
  | group bit sel rsvd =>
    have hlt : sel.toNat < 3 := hf
    have hsel : sel = 1#3 ∨ sel = 2#3 ↔ sel ≠ 0#3 := by bv_omega
    simp [halfBreakOrLock, hsel]
  | _ => simp [halfBreakOrLock]

theorem halfMovImmediate_iff : halfMovImmediate f = true ↔ ∃ dr imm, f = .mov dr (.imm imm) := by
  cases f with
  | mov dr b => cases b <;> simp [halfMovImmediate]
  | _ => simp [halfMovImmediate]

theorem halfLdiSixthBit_iff : halfLdiSixthBit f = true ↔ ∃ dr imm, f = .ldi dr true imm := by
  cases f with
  | ldi dr low imm => simp [halfLdiSixthBit]
  | _ => simp [halfLdiSixthBit]

theorem vliwRefusal_eq_none_iff : vliwRefusal f g = none ↔ halfWritesPcOrCc f = false
    ∧ (halfBreakOrLock f || halfBreakOrLock g) = false ∧ (halfMovImmediate f || halfMovImmediate g) = false
    ∧ (halfLdiSixthBit f || halfLdiSixthBit g) = false := by
  unfold vliwRefusal
  grind

end Sys2Proof.Machine

namespace Sys2Proof.Proofs

open Sys2Proof Sys2Proof.Machine Sys2Proof.Says

/-- Settles O37: legality is looked at first, and of legal halves each ground of a refusal is one of R232's. -/
theorem vliwIllegalAndRefused : Obligations.VliwIllegalAndRefused := by
  refine ⟨fun s c2 cnd f g h => exec_vliw_illegal h c2 cnd, fun s c2 cnd f g hv hf hg => ?_⟩
  have hrefused : (∃ r, exec (.vliw c2 cnd f g) s = .refused r) ↔ ¬vliwRefusal f g = none := by
    rw [exec_vliw_built hv hf hg]
    cases vliwRefusal f g <;> simp
  simp only [hrefused, vliwRefusal_eq_none_iff, not_and_or, Bool.not_eq_false, Bool.or_eq_true, halfWritesPcOrCc_iff hf,
    halfBreakOrLock_iff hf, halfBreakOrLock_iff hg, halfMovImmediate_iff, halfLdiSixthBit_iff, or_and_right, exists_or]

end Sys2Proof.Proofs
end

section
/-! ## VLIW words: two halves in order (48_vliw.md R225 to R228)

A half runs the body of an instruction word on the same operands; only an exception asks where in the word it stands. A first half
that raises none leaves the PC past the word and at most a store that will land (`State.HalfDone`), so that the second half begins
where a word of its own at the same address would. -/

namespace Sys2Proof.Machine

open Sys2Proof Sys2Proof.Says

variable {s t : State} {f g : Half} {cnd : Cond}

/-! ### A half and the word that does the same -/

theorem signExtend_signExtend {m n k : Nat} (x : BitVec m) (hn : m ≤ n) (hk : n ≤ k) :
    (x.signExtend n).signExtend k = x.signExtend k :=
  BitVec.eq_of_toInt_eq (by
    rw [BitVec.toInt_signExtend_of_le hk, BitVec.toInt_signExtend_of_le hn, BitVec.toInt_signExtend_of_le (hn.trans hk)])

theorem halfB_passed (s : State) (b : HalfB) : (passed s).halfB b = halfOperand s b := by
  cases b with
  | imm i => rfl
  | reg br => exact readReg_passed s br

theorem opB_passed_widenB (s : State) (b : HalfB) : (passed s).opB (widenB b) = halfOperand s b := by
  refine (s.opB_advance (widenB b)).trans ?_
  cases b with
  | imm i => exact signExtend_signExtend i (by decide) (by decide)
  | reg br => exact BitVec.add_zero _

/-- What a word that runs `body` leaves under a condition. -/
def State.underCondition (s : State) (cnd : Cond) (body : Ran) : State :=
  if condHolds cnd (own s).flags then body.state else passed s

theorem State.runWord_built (s : State) (cnd : Cond) (body : Ctx → State → Ran) : s.runWord true cnd body =
    s.underCondition cnd (body ⟨(own s).pc, .whole, decide (cnd ≠ .always)⟩ (passed s)) := rfl

theorem bodyMov_passed (s : State) (dr br : Reg) (ctx : Ctx) :
    bodyMov dr false br false 0#13 ctx (passed s) = .done ((passed s).writeReg dr (regValue s br)) := by
  rw [bodyMov, State.movSet_own (.inr rfl), State.writeIn_own, ← readReg_passed]
  exact congrArg (fun v => Ran.done ((passed s).writeReg dr v)) (BitVec.add_zero _)

/-- The word of a built half does what the half does. -/
theorem wholeOf_eq {i : State → Host.Outcome State Fault Refusal} (hi : wholeOf f cnd = some i) (hb : Built s f) :
    i s = .next (s.underCondition cnd (bodyHalf f ⟨(own s).pc, .whole, decide (cnd ≠ .always)⟩ (passed s))) := by
  cases f with
  | std op dr b =>
    have hbuilt : s.stdBuilt op = true := (s.halfLegal_std op dr b).symm.trans ((s.halfLegal_iff _).mpr hb)
    cases hi
    rw [exec_stdInstr, hbuilt, State.runWord_built, opB_passed_widenB, bodyHalf, halfB_passed]
  | mov dr b =>
    cases b with
    | imm imm => cases hi
    | reg br =>
      cases hi
      refine (congrArg Host.Outcome.next (s.runWord_built cnd _)).trans ?_
      rw [bodyMov_passed, bodyHalf, halfB_passed]
      rfl
  | ldi dr low imm =>
    cases low with
    | true => cases hi
    | false =>
      cases hi
      dsimp only [State.underCondition, bodyHalf, bodyLdi]
      rw [exec_ldi, signExtend_signExtend imm (by decide) (by decide)]
      split <;> rfl
  | group bit sel rsvd =>
    obtain ⟨_, rfl⟩ : sel = 0#3 ∧ exec (.noop false 0#22) = i := by simpa [wholeOf] using hi
    rw [exec_noop, State.underCondition]
    exact congrArg Host.Outcome.next (ite_self _).symm
  | unbuilt sel dr b => cases hi

/-! ### The halves of a word inside the domain -/

/-- A half that a word of its own stands for is none that R232 refuses. -/
theorem domain_of_wholeOf (h : (wholeOf f cnd).isSome = true) :
    halfBreakOrLock f = false ∧ halfMovImmediate f = false ∧ halfLdiSixthBit f = false := by
  cases f with
  | std op dr b => exact ⟨rfl, rfl, rfl⟩
  | mov dr b =>
    cases b with
    | imm imm => cases h
    | reg br => exact ⟨rfl, rfl, rfl⟩
  | ldi dr low imm =>
    cases low with
    | true => cases h
    | false => exact ⟨rfl, rfl, rfl⟩
  | group bit sel rsvd =>
    have hsel : sel = 0#3 := by simpa [wholeOf] using h
    rw [hsel]
    exact ⟨rfl, rfl, rfl⟩
  | unbuilt sel dr b => cases h

theorem built_of_runs (hr : Runs s f) (h : (wholeOf f cnd).isSome = true) : Built s f := by
  cases f with
  | std op dr b =>
    cases op with
    | mpy | mpyuhi | mpyshi => exact hr
    | divu | divs => exact hr.1
    | _ => trivial
  | mov dr b => trivial
  | ldi dr low imm => trivial
  | group bit sel rsvd =>
    have hsel : sel = 0#3 := by simpa [wholeOf] using h
    rw [hsel]
    exact Nat.zero_lt_succ 2
  | unbuilt sel dr b => cases h

theorem built_of_cfg (h : t.cfg = s.cfg) : Built t f ↔ Built s f := by
  unfold Built
  rw [h]

/-- A word inside the domain runs its halves; with no store in flight it waits for nothing first. -/
theorem exec_vliw_runs {cnd' : Cond} (hv : s.cfg.optVliw = true) (ha : AdmittedFirst f) (hf : Built s f) (hg : Built s g)
    (hwf : (wholeOf f cnd).isSome = true) (hwg : (wholeOf g cnd').isSome = true) (c2 : Bool) (c : Cond2) :
    exec (.vliw c2 c f g) s = .next ((passed s).runVliw (own s).pc c2 c f g) := by
  obtain ⟨hlockf, hmovf, hldif⟩ := domain_of_wholeOf hwf
  obtain ⟨hlockg, hmovg, hldig⟩ := domain_of_wholeOf hwg
  have hwrites : halfWritesPcOrCc f = false := by
    rw [← Bool.not_eq_true, halfWritesPcOrCc_iff hf, not_not]
    exact ha
  have hdomain : vliwRefusal f g = none := by
    simp [vliwRefusal_eq_none_iff, hwrites, hlockf, hlockg, hmovf, hmovg, hldif, hldig]
  rw [exec_vliw_built hv hf hg, hdomain]

/-! ### The first half -/

/-- What a first half that raised no exception leaves: the PC past the word, and a store in flight, if any, that will land. -/
structure State.HalfDone (s t : State) : Prop where
  cfg : t.cfg = s.cfg
  pc : (own t).pc = (own s).pc + 1#32
  lands : t.drainPosted.1 = true

theorem withOwn_posted (s : State) (rs : RegSet) : (withOwn s rs).posted = s.posted := s.withActive_posted rs

theorem passed_posted (s : State) : (passed s).posted = s.posted := withOwn_posted s _

section
variable (hp : s.posted = none)
include hp

theorem State.HalfDone.registers (r : Vector Word 14) (fl : Flags) :
    s.HalfDone (withOwn s { own s with pc := (own s).pc + 1#32, r := r, flags := fl }) where
  cfg := s.withActive_cfg _
  pc := by rw [own_withOwn]
  lands := by rw [State.drainPosted_none _ ((withOwn_posted s _).trans hp)]

theorem State.HalfDone.passed : s.HalfDone (passed s) := .registers hp (own s).r (own s).flags

theorem State.HalfDone.wrote (n : Fin 14) (v : Word) (fl : Flags) : s.HalfDone (wrote s n v fl) := .registers hp _ fl

end

theorem State.HalfDone.posting (a v : Word) (hr : s.ramReady a) :
    s.HalfDone { Says.passed s with posted := some (a, v) } where
  cfg := s.withActive_cfg _
  pc := congrArg RegSet.pc (own_withOwn s _)
  lands := by
    have hready : ({ Says.passed s with posted := some (a, v) } : State).ramReady a :=
      State.ramReady_of_eq hr (s.withActive_cfg _) (s.withActive_cur _)
    rw [State.drainPosted_ram rfl hready]

theorem Reg.exists_gpr {dr : Reg} (h : dr.isGpr = true) : ∃ n, dr = .gpr n := by
  cases dr with
  | gpr n => exact ⟨n, rfl⟩
  | cc => cases h
  | pc => cases h

theorem waitForStore_passed (hp : s.posted = none) (ctx : Ctx) : (passed s).waitForStore ctx = .done (passed s) :=
  State.waitForStore_none _ ctx ((passed_posted s).trans hp)

theorem bodySto_passed (hp : s.posted = none) (dr : Reg) (a : Word) (ctx : Ctx) :
    bodySto dr a ctx (passed s) = .done { passed s with posted := some (a, regValue s dr) } := by
  rw [bodySto, waitForStore_passed hp, readReg_passed]

/-- The result of an ALU operation in a half. -/
theorem State.HalfDone.finish (hp : s.posted = none) (conditional : Bool) {dr : Reg} (r : AluResult)
    (h : dr.isGpr = true) : s.HalfDone ((Says.passed s).finish conditional dr r) := by
  obtain ⟨n, rfl⟩ := Reg.exists_gpr h
  rw [finish_gpr_passed]
  exact .wrote hp n _ _

theorem State.HalfDone.writeReg (hp : s.posted = none) {dr : Reg} (v : Word) (h : dr.isGpr = true) :
    s.HalfDone ((Says.passed s).writeReg dr v) := by
  obtain ⟨n, rfl⟩ := Reg.exists_gpr h
  rw [writeReg_gpr_passed]
  exact .wrote hp n _ _

theorem State.HalfDone.finishDivide (hp : s.posted = none) (ctx : Ctx) {dr : Reg} (q : Word) (h : dr.isGpr = true) :
    s.HalfDone ((Says.passed s).finishDivide ctx dr q) := by
  rw [finishDivide_passed]
  have hdone := State.HalfDone.finish (s := { s with draws := s.draws + 2 }) hp ctx.conditional
    ⟨q, zn q (Config.freeBit s.draws) (Config.freeBit (s.draws + 1))⟩ h
  exact ⟨hdone.cfg, hdone.pc, hdone.lands⟩

/-- A half that R232 admits as the first and that raises no exception completes, wherever in a word it stands. -/
theorem bodyHalf_admitted (hp : s.posted = none) (ha : AdmittedFirst f) (hr : Runs s f) (conditional : Bool) :
    ∃ t, s.HalfDone t ∧ ∀ a slot, bodyHalf f ⟨a, slot, conditional⟩ (passed s) = .done t := by
  cases f with
  | std op dr b =>
    simp only [bodyHalf, halfB_passed]
    cases op with
    | cmp | tst =>
      refine ⟨_, ?_, fun _ _ => rfl⟩
      rw [setFlags_passed]
      exact .registers hp _ _
    | lod =>
      have hready : (passed s).ramReady (halfOperand s b) := State.ramReady_of_eq hr (s.withActive_cfg _) (s.withActive_cur _)
      refine ⟨_, .writeReg hp (Memory.fetch (passed s).mem (halfOperand s b)) ha, fun a slot => ?_⟩
      rw [bodyStd, bodyLod, waitForStore_passed hp]
      exact State.loadInto_read _ dr (State.busRead_ram _ _ hready)
    | sto => exact ⟨_, .posting _ _ hr, fun a slot => bodySto_passed hp dr _ _⟩
    | divu => exact ⟨_, .finishDivide hp ⟨0#32, .first, conditional⟩ _ ha, fun a slot => bodyDivu_nonzero hr.2 dr _ _⟩
    | divs => exact ⟨_, .finishDivide hp ⟨0#32, .first, conditional⟩ _ ha, fun a slot => bodyDivs_nonzero hr.2 dr _ _⟩
    | ldilo | brev => exact ⟨_, .writeReg hp _ ha, fun _ _ => rfl⟩
    | _ => exact ⟨_, .finish hp conditional _ ha, fun _ _ => rfl⟩
  | mov dr b => exact ⟨_, .writeReg hp _ ha, fun _ _ => rfl⟩
  | ldi dr low imm => exact ⟨_, .writeReg hp _ ha, fun _ _ => rfl⟩
  | group bit sel rsvd => exact ⟨_, .passed hp, fun _ _ => rfl⟩
  | unbuilt sel dr b => exact ha.elim

theorem cond2Holds_eq (c : Cond2) (fl : Flags) : cond2Holds c fl = condHolds (widen c) fl := by
  cases c <;> rfl

theorem widen_always_iff (c : Cond2) : widen c = .always ↔ c = .always := by
  cases c <;> simp [widen]

theorem passed_active (s : State) : (passed s).active = { own s with pc := (own s).pc + 1#32 } := own_withOwn s _

/-- The first half leaves what its word leaves. -/
theorem vliwFirst_done {i : State → Host.Outcome State Fault Refusal} {c : Cond2} (hp : s.posted = none)
    (ha : AdmittedFirst f) (hr : Runs s f) (hi : wholeOf f (widen c) = some i) :
    ∃ t, s.HalfDone t ∧ i s = .next t ∧ (passed s).vliwFirst (own s).pc c f = .done t := by
  have hwhole := wholeOf_eq hi (built_of_runs hr (by rw [hi]; rfl))
  obtain ⟨t, hdone, hbody⟩ := bodyHalf_admitted hp ha hr (decide (c ≠ .always))
  rw [State.underCondition] at hwhole
  simp only [ne_eq, widen_always_iff, ← cond2Holds_eq] at hwhole
  unfold State.vliwFirst
  rw [passed_active]
  by_cases hc : cond2Holds c (own s).flags = true
  · rw [if_pos hc, hbody] at hwhole
    exact ⟨t, hdone, hwhole, by rw [if_pos hc, hbody]⟩
  · rw [if_neg hc] at hwhole
    exact ⟨_, .passed hp, hwhole, if_neg hc⟩

/-! ### The second half -/

/-- What the second half finds is what the first has left, or that with its store landed and the bus granted. -/
theorem handed_cases (t : State) (executes : Bool) (g : Half) :
    (handed t executes g = t ∧ (executes = true → halfUsesMemory g = false))
    ∨ (handed t executes g = t.drainPosted.2.grantBus ∧ executes = true ∧ halfUsesMemory g = true) := by
  cases g with
  | std op dr b =>
    cases op with
    | lod | sto =>
      cases executes with
      | true => exact .inr ⟨rfl, rfl, rfl⟩
      | false => exact .inl ⟨rfl, nofun⟩
    | _ => exact .inl ⟨rfl, fun _ => rfl⟩
  | _ => exact .inl ⟨rfl, fun _ => rfl⟩

/-- The registers, the mode and the build are the first half's. -/
theorem handed_frame (t : State) (executes : Bool) (g : Half) : ∃ q m p d l, handed t executes g =
    { t with posted := q, mem := m, per := p, draws := d, cur := { t.cur with fates := l } } := by
  rcases handed_cases t executes g with ⟨h, _⟩ | ⟨h, _⟩
  · exact ⟨t.posted, t.mem, t.per, t.draws, t.cur.fates, h⟩
  · obtain ⟨m, p, d, l, hh⟩ := t.drainPosted_masters.trans t.drainPosted.2.grantBus_frame
    exact ⟨none, m, p, d, l, h.trans hh⟩

theorem own_handed (t : State) (executes : Bool) (g : Half) : own (handed t executes g) = own t := by
  obtain ⟨q, m, p, d, l, h⟩ := handed_frame t executes g
  rw [h]
  rfl

theorem handed_cfg (t : State) (executes : Bool) (g : Half) : (handed t executes g).cfg = t.cfg := by
  obtain ⟨q, m, p, d, l, h⟩ := handed_frame t executes g
  rw [h]

theorem halfB_handed (t : State) (executes : Bool) (g : Half) (b : HalfB) : (handed t executes g).halfB b = t.halfB b := by
  obtain ⟨q, m, p, d, l, h⟩ := handed_frame t executes g
  rw [h]
  cases b with
  | imm i => rfl
  | reg br => cases br <;> rfl

theorem handed_posted (t : State) (hm : halfUsesMemory g = true) : (handed t true g).posted = none := by
  rcases handed_cases t true g with ⟨_, h⟩ | ⟨h, _⟩
  · simp [h rfl] at hm
  · obtain ⟨m, p, d, l, hgrant⟩ := t.drainPosted.2.grantBus_frame
    rw [h, hgrant]
    exact t.drainPosted_posted

theorem betweenHalves_done (h : t.drainPosted.1 = true) (ctx : Ctx) (g : Half) :
    t.betweenHalves ctx g = .done (handed t true g) := by
  rcases handed_cases t true g with ⟨hh, hm⟩ | ⟨hh, _, hm⟩
  · simp [State.betweenHalves, hh, hm rfl]
  · rcases t.betweenHalves_cases ctx g with ⟨hn, _⟩ | ⟨_, _, hb⟩ | ⟨_, hn, _⟩
    · simp [hm] at hn
    · rw [hb, hh]
    · simp [h] at hn

/-- The condition that governs the second half (R226). -/
def secondCond (c2 : Bool) (c : Cond2) : Cond := if c2 then widen c else .always

theorem condHolds_secondCond (c2 : Bool) (c : Cond2) (fl : Flags) :
    condHolds (secondCond c2 c) fl = (!c2 || cond2Holds c fl) := by
  cases c2 with
  | true => exact (cond2Holds_eq c fl).symm
  | false => rfl

theorem decide_secondCond (c2 : Bool) (c : Cond2) :
    decide (secondCond c2 c ≠ .always) = (c2 && decide (c ≠ .always)) := by
  cases c2 with
  | true => simp [secondCond, widen_always_iff]
  | false => rfl

/-- The second half runs, under its condition, on what it is handed. -/
theorem vliwSecond_done (h : t.drainPosted.1 = true) (a : Word) (c2 : Bool) (c : Cond2) (g : Half) :
    t.vliwSecond a c2 c g = if condHolds (secondCond c2 c) (own t).flags then
      bodyHalf g ⟨a, .second, decide (secondCond c2 c ≠ .always)⟩ (handed t true g) else .done t := by
  rw [condHolds_secondCond, decide_secondCond]
  unfold State.vliwSecond
  dsimp only
  rw [betweenHalves_done h]
  rfl

/-- With nothing to wait for, the second half of a word does not look at where it stands. -/
theorem bodyHalf_second (hp : halfUsesMemory g = true → t.posted = none) (a : Word) (conditional : Bool) :
    bodyHalf g ⟨a, .second, conditional⟩ t = bodyHalf g ⟨a, .whole, conditional⟩ t := by
  cases g with
  | std op dr b =>
    cases op with
    | lod =>
      dsimp only [bodyHalf, bodyStd, bodyLod]
      rw [t.waitForStore_none _ (hp rfl), t.waitForStore_none _ (hp rfl)]
      rfl
    | sto =>
      dsimp only [bodyHalf, bodyStd, bodySto]
      rw [t.waitForStore_none _ (hp rfl), t.waitForStore_none _ (hp rfl)]
    | _ => rfl
  | _ => rfl

theorem withOwn_withOwn (s : State) (x y : RegSet) : withOwn (withOwn s x) y = withOwn s y := by
  cases hg : s.gie <;> simp [withOwn, hg]

theorem withOwn_own (s : State) : withOwn s (own s) = s := by
  unfold withOwn own
  split <;> rfl

theorem own_moved (s : State) (pc : Word) : own (moved s pc) = { own s with pc := pc } := own_withOwn s _

theorem moved_cfg (s : State) (pc : Word) : (moved s pc).cfg = s.cfg := s.withActive_cfg _

/-- Back at an instruction's own address, a state past the instruction is what that instruction runs on. -/
theorem passed_moved {a : Word} (h : (own t).pc = a + 1#32) : passed (moved t a) = t := by
  have hback : passed (moved t a) = withOwn t { own t with pc := a + 1#32 } := by
    rw [passed, moved, own_moved, moved, withOwn_withOwn]
  rw [hback, ← h]
  exact withOwn_own t

/-- The second half leaves what its word, at the address of the VLIW word, leaves. -/
theorem vliwSecond_eq {j : State → Host.Outcome State Fault Refusal} {a : Word} {c2 : Bool} {c : Cond2}
    (h : t.drainPosted.1 = true) (hpc : (own t).pc = a + 1#32) (hj : wholeOf g (secondCond c2 c) = some j)
    (hb : Built t g) :
    j (moved (handed t (condHolds (secondCond c2 c) (own t).flags) g) a) = .next (t.vliwSecond a c2 c g).state := by
  generalize he : condHolds (secondCond c2 c) (own t).flags = e
  have hown : own (moved (handed t e g) a) = { own t with pc := a } := by rw [own_moved, own_handed]
  have hbuilt : Built (moved (handed t e g) a) g := (built_of_cfg (by rw [moved_cfg, handed_cfg])).mpr hb
  rw [wholeOf_eq hj hbuilt, State.underCondition, hown, passed_moved (by rw [own_handed, hpc]), vliwSecond_done h, he]
  cases e with
  | false =>
    rcases handed_cases t false g with ⟨hh, _⟩ | ⟨_, hfalse, _⟩
    · simp [hh, Ran.state]
    · cases hfalse
  | true => simp only [if_true, bodyHalf_second fun hm => handed_posted t hm]

/-! ### The whole word -/

theorem State.vliwStart_none (hp : s.posted = none) (ctx : Ctx) (f g : Half) : s.vliwStart ctx f g = .done s := by
  unfold State.vliwStart
  split
  · exact s.waitForStore_none ctx hp
  · rfl

section
variable {a : Word} {c2 : Bool} {c : Cond2} {u : State} (hstart : s.vliwStart ⟨a, .whole, false⟩ f g = .done s)
include hstart

theorem State.runVliw_done (h : s.vliwFirst a c f = .done t) : s.runVliw a c2 c f g = (t.vliwSecond a c2 c g).state := by
  simp only [State.runVliw, hstart, h]

/-- An exception of the first half ends the word (R230). -/
theorem State.runVliw_raised (h : s.vliwFirst a c f = .raised u) : s.runVliw a c2 c f g = u := by
  simp only [State.runVliw, hstart, h]

end

theorem vliwStart_passed (hp : s.posted = none) (f g : Half) :
    (passed s).vliwStart ⟨(own s).pc, .whole, false⟩ f g = .done (passed s) :=
  State.vliwStart_none ((passed_posted s).trans hp) _ f g

/-- LDI and NOOP in one word, whatever is in flight. -/
theorem exec_vliw_ldi_noop (hv : s.cfg.optVliw = true) (c : Cond2) (n : Fin 14) (imm rsvd : BitVec 5) (bit : Bool) :
    exec (.vliw false c (.ldi (.gpr n) false imm) (.group bit 0#3 rsvd)) s = .next
      (if condHolds (widen c) (own s).flags then wrote s n (imm.signExtend 32) (own s).flags else passed s) := by
  have hnoop (t : State) (a : Word) : (t.vliwSecond a false c (.group bit 0#3 rsvd)).state = t := rfl
  have hrun := exec_vliw_runs (f := .ldi (.gpr n) false imm) (g := .group bit 0#3 rsvd) (cnd := .always) (cnd' := .always)
    hv rfl trivial (Nat.zero_lt_succ 2) rfl rfl false c
  have hfirst : (passed s).vliwFirst (own s).pc c (.ldi (.gpr n) false imm) = .done
      (if condHolds (widen c) (own s).flags then wrote s n (imm.signExtend 32) (own s).flags else passed s) := by
    rw [State.vliwFirst, passed_active, cond2Holds_eq]
    split
    · exact congrArg Ran.done (writeReg_gpr_passed s n _)
    · rfl
  rw [hrun, State.runVliw_done rfl hfirst, hnoop]

end Sys2Proof.Machine

namespace Sys2Proof.Proofs

open Sys2Proof Sys2Proof.Machine Sys2Proof.Says

/-- Settles O35: the first half leaves what its word leaves, and the second begins there as a word at the same address would. -/
theorem vliwRunsBothHalves : Obligations.VliwRunsBothHalves := by
  refine ⟨fun s c2 c f g i j hv hp ha hi hj hrf hrg => ?_, fun s c n imm rsvd bit hv => exec_vliw_ldi_noop hv c n imm rsvd bit⟩
  have hwf : (wholeOf f (widen c)).isSome = true := by rw [hi]; rfl
  have hwg : (wholeOf g (secondCond c2 c)).isSome = true := by rw [secondCond, hj]; rfl
  obtain ⟨t, hdone, hit, hfirst⟩ := vliwFirst_done hp ha hrf hi
  have hbt : Built t g := (built_of_cfg (moved_cfg t _)).mp (built_of_runs (hrg t hit) hwg)
  have hbs : Built s g := (built_of_cfg hdone.cfg).mp hbt
  refine ⟨t, (t.vliwSecond (own s).pc c2 c g).state, hit, vliwSecond_eq hdone.lands hdone.pc hj hbt, ?_⟩
  rw [exec_vliw_runs hv ha (built_of_runs hrf hwf) hbs hwf hwg, State.runVliw_done (vliwStart_passed hp f g) hfirst]

end Sys2Proof.Proofs
end

section
/-! ## VLIW words: exceptions of a half (48_vliw.md R230, R231) -/

namespace Sys2Proof.Machine

open Sys2Proof Sys2Proof.Says

variable {s t u : State} {f g : Half} {c2 : Bool} {c : Cond2}

/-! ### Of the first half -/

theorem vliwFirst_executed (hc : cond2Holds c (own s).flags = true) (f : Half) : (passed s).vliwFirst (own s).pc c f =
    bodyHalf f ⟨(own s).pc, .first, decide (c ≠ .always)⟩ (passed s) := by
  rw [State.vliwFirst, passed_active, if_pos hc]

/-- An exception of an admitted first half is what the word leaves. -/
theorem exec_vliw_first_raised (hv : s.cfg.optVliw = true) (hp : s.posted = none) (hc : cond2Holds c (own s).flags = true)
    (hwf : (wholeOf f .always).isSome = true) (hwg : (wholeOf g .always).isSome = true) (ha : AdmittedFirst f)
    (hf : Built s f) (hg : Built s g)
    (hraised : bodyHalf f ⟨(own s).pc, .first, decide (c ≠ .always)⟩ (passed s) = .raised u) :
    exec (.vliw c2 c f g) s = .next u := by
  rw [exec_vliw_runs hv ha hf hg hwf hwg,
    State.runVliw_raised (vliwStart_passed hp f g) ((vliwFirst_executed hc f).trans hraised)]

theorem busRead_passed_failed {a : Word} (hr : s.busRead a = (none, t)) : (passed s).busRead a = (none, passed t) := by
  have hadvance := s.busRead_advance a
  rw [hr] at hadvance
  exact hadvance

/-- BusError of a word whose PC has advanced, at its own address. -/
theorem takeException_busError_passed (s : State) (phase : Bool) :
    (passed s).takeException .busError (own s).pc phase = busErrorEntry s phase :=
  s.takeException_busError_advance phase

theorem own_of_busRead {a : Word} {v : Option Word} (hr : s.busRead a = (v, t)) : own t = own s := by
  have h := s.busRead_active a
  rw [hr] at h
  exact h

theorem bodyLod_failed {a : Word} (hp : s.posted = none) (hr : s.busRead a = (none, t)) (dr : Reg) (ctx : Ctx) :
    bodyLod dr a ctx s = .raised (t.takeException .busError ctx.addr (decide (ctx.slot = .first))) := by
  rw [bodyLod, s.waitForStore_none ctx hp]
  simp only [State.loadInto, hr]

/-! ### Of the second half -/

/-- Where the first half is done and the condition holds, the second half's body is what is left of the word. -/
theorem exec_vliw_second {i : State → Host.Outcome State Fault Refusal} (hv : s.cfg.optVliw = true) (hp : s.posted = none)
    (ha : AdmittedFirst f) (hrf : Runs s f) (hi : wholeOf f (widen c) = some i) (hit : i s = .next t)
    (hwg : (wholeOf g .always).isSome = true) (hg : Built s g)
    (hc : c2 = false ∨ cond2Holds c (own t).flags = true) :
    (own t).pc = (own s).pc + 1#32 ∧ exec (.vliw c2 c f g) s =
      .next (bodyHalf g ⟨(own s).pc, .second, decide (secondCond c2 c ≠ .always)⟩ (handed t true g)).state := by
  have hwf : (wholeOf f (widen c)).isSome = true := by rw [hi]; rfl
  obtain ⟨t', hdone, hit', hfirst⟩ := vliwFirst_done hp ha hrf hi
  cases hit.symm.trans hit'
  have hcond : condHolds (secondCond c2 c) (own t).flags = true := by
    rw [condHolds_secondCond]
    rcases hc with h | h <;> simp [h]
  refine ⟨hdone.pc, ?_⟩
  rw [exec_vliw_runs hv ha (built_of_runs hrf hwf) hg hwf hwg, State.runVliw_done (vliwStart_passed hp f g) hfirst,
    vliwSecond_done hdone.lands, if_pos hcond]

/-- The operand of a second half is that of a word at the same address. -/
theorem halfB_past {a : Word} (hpc : (own t).pc = a + 1#32) (b : HalfB) : t.halfB b = halfOperand (moved t a) b := by
  rw [← halfB_passed, passed_moved hpc]

theorem takeException_busError_past {a : Word} (hpc : (own t).pc = a + 1#32) (phase : Bool) :
    t.takeException .busError a phase = busErrorEntry (moved t a) phase := by
  have h := takeException_busError_passed (moved t a) phase
  rw [passed_moved hpc, own_moved] at h
  exact h

theorem divideByZero_past {a : Word} (hpc : (own t).pc = a + 1#32) (slot : Slot) (conditional : Bool) :
    t.divideByZero ⟨a, slot, conditional⟩ = divZeroEntry (moved t a) (decide (slot = .first)) := by
  have h := divideByZero_passed (moved t a) slot conditional
  rw [passed_moved hpc, own_moved] at h
  exact h

theorem bodyHalf_divide_zero {op : StdOp} (hop : op ∈ [StdOp.divu, StdOp.divs]) {b : HalfB} (hb : t.halfB b = 0#32) (dr : Reg)
    (ctx : Ctx) : bodyHalf (.std op dr b) ctx t = .raised (t.divideByZero ctx) := by
  simp only [List.mem_cons, List.not_mem_nil, or_false] at hop
  rw [bodyHalf, hb]
  rcases hop with rfl | rfl <;> rfl

theorem built_divide {op : StdOp} (hop : op ∈ [StdOp.divu, StdOp.divs]) (hdiv : s.cfg.implementDivide = true) (dr : Reg)
    (b : HalfB) : Built s (.std op dr b) := by
  simp only [List.mem_cons, List.not_mem_nil, or_false] at hop
  rcases hop with rfl | rfl <;> exact hdiv

/-! ### Of a first half that is a STO, met by the second (R231; log entry 10) -/

theorem vliwSecond_erred {a : Word} (hd : t.drainPosted = (false, u)) (hm : halfUsesMemory g = true)
    (hc : cond2Holds c (own t).flags = true) :
    t.vliwSecond a c2 c g = .raised (u.takeException .busError a true) := by
  have hruns : (!c2 || cond2Holds c t.active.flags) = true := by
    rw [show cond2Holds c t.active.flags = true from hc, Bool.or_true]
  have hbetween : t.betweenHalves ⟨a, .second, c2 && decide (c ≠ .always)⟩ g = .raised (u.takeException .busError a true) := by
    rcases t.betweenHalves_cases ⟨a, .second, c2 && decide (c ≠ .always)⟩ g with ⟨hn, _⟩ | ⟨_, hn, _⟩ | ⟨_, _, h⟩
    · simp [hm] at hn
    · simp [hd] at hn
    · rw [h, hd]
      rfl
  simp only [State.vliwSecond, if_pos hruns, hbetween]

theorem exec_vliw_store_erred {dr : Reg} {b : HalfB} (hv : s.cfg.optVliw = true) (hp : s.posted = none)
    (hc : cond2Holds c (own s).flags = true) (hwg : (wholeOf g .always).isSome = true) (hg : Built s g)
    (hm : halfUsesMemory g = true)
    (hd : ({ passed s with posted := some (halfOperand s b, regValue s dr) } : State).drainPosted = (false, u)) :
    exec (.vliw c2 c (.std .sto dr b) g) s = .next (busErrorEntry (moved u (own s).pc) true) := by
  have hfirst : (passed s).vliwFirst (own s).pc c (.std .sto dr b) =
      .done { passed s with posted := some (halfOperand s b, regValue s dr) } := by
    rw [vliwFirst_executed hc, bodyHalf, halfB_passed]
    exact bodySto_passed hp dr _ _
  have hown : own ({ passed s with posted := some (halfOperand s b, regValue s dr) } : State) =
      { own s with pc := (own s).pc + 1#32 } := own_withOwn s _
  have hpc : (own u).pc = (own s).pc + 1#32 := by
    have hactive := State.drainPosted_active { passed s with posted := some (halfOperand s b, regValue s dr) }
    rw [hd] at hactive
    exact congrArg RegSet.pc (hactive.trans hown)
  rw [exec_vliw_runs (f := .std .sto dr b) hv trivial trivial hg (cnd := .always) rfl hwg,
    State.runVliw_done (vliwStart_passed hp _ g) hfirst, vliwSecond_erred hd hm (by rw [hown]; exact hc), Ran.state,
    takeException_busError_past hpc]

end Sys2Proof.Machine

namespace Sys2Proof.Proofs

open Sys2Proof Sys2Proof.Machine Sys2Proof.Says

/-- Settles O36: an exception of the first half ends the word with PHASE set, one of the second leaves PHASE clear, and the error of
the first half's store is met before the second half runs. -/
theorem vliwDivideByZero : Obligations.VliwDivideByZero := by
  intro s c2 c f g b hv hp hc
  refine ⟨fun hg hwg n => ⟨fun hdiv hb => ?firstDivide, fun t hr => ?firstLod⟩,
    fun i t dr ha hrf hi hit hcond => ⟨fun hdiv hb => ?secondDivide, fun u hr => ?secondLod⟩, fun dr dr' b' u hd op hop => ?store⟩
  case firstDivide =>
    have hdivide : ∀ op ∈ [StdOp.divu, StdOp.divs], AdmittedFirst (.std op (.gpr n) b) →
        exec (.vliw c2 c (.std op (.gpr n) b) g) s = .next (divZeroEntry s true) := by
      intro op hop ha
      refine exec_vliw_first_raised hv hp hc rfl hwg ha (built_divide hop hdiv _ b) hg ?_
      rw [bodyHalf_divide_zero hop ((halfB_passed s b).trans hb), divideByZero_passed]
      rfl
    exact ⟨hdivide .divu (by decide) rfl, hdivide .divs (by decide) rfl⟩
  case firstLod =>
    refine exec_vliw_first_raised hv hp hc rfl hwg rfl trivial hg ?_
    rw [bodyHalf, halfB_passed, bodyStd, bodyLod_failed ((passed_posted s).trans hp) (busRead_passed_failed hr),
      ← own_of_busRead hr, takeException_busError_passed]
    rfl
  case secondDivide =>
    have hdivide : ∀ op ∈ [StdOp.divu, StdOp.divs], handed t true (.std op dr b) = t →
        exec (.vliw c2 c f (.std op dr b)) s = .next (divZeroEntry (moved t (own s).pc) false) := by
      intro op hop hhanded
      obtain ⟨hpc, hexec⟩ := exec_vliw_second hv hp ha hrf hi hit rfl (built_divide hop hdiv dr b) hcond
      rw [hexec, hhanded, bodyHalf_divide_zero hop ((halfB_past hpc b).trans hb), Ran.state, divideByZero_past hpc]
      rfl
    exact ⟨hdivide .divu (by decide) rfl, hdivide .divs (by decide) rfl⟩
  case secondLod =>
    obtain ⟨hpc, hexec⟩ := exec_vliw_second (g := .std .lod dr b) hv hp ha hrf hi hit rfl trivial hcond
    have hpcu : (own u).pc = (own s).pc + 1#32 := by rw [own_of_busRead hr, own_handed, hpc]
    rw [← halfB_past hpc, ← halfB_handed t true (.std .lod dr b)] at hr
    rw [hexec, bodyHalf, bodyStd, bodyLod_failed (handed_posted t rfl) hr, Ran.state, takeException_busError_past hpcu]
    rfl
  case store =>
    obtain ⟨hbuilt, hm⟩ : Built s (.std op dr' b') ∧ halfUsesMemory (.std op dr' b') = true := by
      simp only [List.mem_cons, List.not_mem_nil, or_false] at hop
      rcases hop with rfl | rfl <;> exact ⟨trivial, rfl⟩
    exact exec_vliw_store_erred hv hp hc rfl hbuilt hm hd

end Sys2Proof.Proofs
end

section
/-! ## Steps at which no instruction executes (60_exceptions.md R312, R346, R350; 10_state.md R50) -/

namespace Sys2Proof.Machine

open Sys2Proof Sys2Proof.Says

variable {s t u : State}

/-! ### The end of a step -/

theorem State.stepSwitch_idle (s : State) : s.stepSwitch false = s := by
  simp [State.stepSwitch]

theorem State.settle_idle (s : State) : s.settle false false = s.settleStore := by
  simp [State.settle, State.stepSwitch_idle]

theorem State.stepSwitch_halted_eq (h : s.halted = true) (ran : Bool) : s.stepSwitch ran = s := by
  simp [State.stepSwitch, h]

/-- STEP after a user instruction is the switch to the supervisor (60_exceptions.md R346). -/
theorem State.stepSwitch_user (hg : s.gie = true) (hs : s.stepBit = true) (hh : s.halted = false) :
    s.stepSwitch true = entered s s.usr.pc false := by
  simp only [State.stepSwitch, hg, hs, hh]
  rfl

/-! ### Halted, waiting and interrupted -/

theorem State.cpu_halted (hh : s.halted = true) : s.cpu false = .next s.settleStore := by
  simp [State.cpu, hh, State.settle_idle]

section
variable (hh : s.halted = false) (he : s.storeErr = false) (hg : s.gie = true)
include hh he hg

theorem State.cpu_waiting (hs : s.sleep = true) (hi : s.takesInterrupt = false) : s.cpu false = .next s.settleStore := by
  simp [State.cpu, hh, he, hg, hs, hi, State.settle_idle]

theorem State.cpu_interrupted (hi : s.takesInterrupt = true) (hp : s.posted = none) :
    s.cpu false = .next (entered s s.usr.pc false) := by
  have hsettled : (s.enterSupervisor s.usr.pc false).settleStore = entered s s.usr.pc false := State.settleStore_none _ hp
  simp [State.cpu, hh, he, hg, hi, State.settle_idle, hsettled]

end

/-! ### What the other agents leave of a halted CPU -/

theorem State.loadEnv_frame (s : State) : ∃ e r x d, s.loadEnv = { s with cur := e, env := r, ext := x, dmaWires := d } := by
  unfold State.loadEnv
  split
  · exact ⟨_, s.env, s.ext, s.dmaWires, rfl⟩
  · exact ⟨_, _, _, _, rfl⟩

/-- With the watchdog stopped the CPU's part of a step finds the CPU as it was, but for its cache. -/
theorem ready_frame (h : s.per.wdt.value = 0#31) : ∃ e r x w m c p d i, ready s =
    { s with cur := e, env := r, ext := x, dmaWires := w, mem := m, icache := c, per := p, draws := d, irqSeen := i } := by
  obtain ⟨e, r, x, w, hload⟩ := s.loadEnv_frame
  have hw : s.loadEnv.per.wdt.value = 0#31 := by
    rw [hload]
    exact h
  obtain ⟨m, c, p, d, l, hagents⟩ := s.loadEnv.agents_frame hw
  rw [hload] at hagents
  exact ⟨_, r, x, w, m, c, p, d, _, by rw [ready, hload, hagents]; rfl⟩

/-! ### The input's level (60_exceptions.md R311, R356) -/

theorem Pic.any_iff (p : Pic) :
    p.any = true ↔ p.mie = true ∧ ∃ i, i < 15 ∧ p.en.getLsbD i = true ∧ p.st.getLsbD i = true := by
  have hzero : p.en &&& p.st = 0#15 ↔ ∀ i, i < 15 → p.en.getLsbD i = true → p.st.getLsbD i = false := by
    constructor
    · intro h i _ he
      have hbit := congrArg (·.getLsbD i) h
      simpa [he] using hbit
    · intro h
      refine BitVec.eq_of_getLsbD_eq fun i hi => ?_
      cases he : p.en.getLsbD i with
      | false => simp [he]
      | true => simp [he, h i hi he]
  rw [Pic.any, Bool.and_eq_true, bne_iff_ne, ne_eq, hzero]
  simp

theorem State.irq_zipSystem (h : s.cfg.container = .zipSystem) : s.irq = s.per.pic.any := by
  simp [State.irq, h]

theorem State.irq_zipBones (h : s.cfg.container = .zipBones) : s.irq = s.ext.getLsbD 0 := by
  simp [State.irq, State.extLines, h]

/-! ### A seen input stays seen (60_exceptions.md R341) -/

theorem State.takeException_irqSeen (s : State) (c : Cause) (saved : Word) (phase : Bool) :
    (s.takeException c saved phase).irqSeen = s.irqSeen := by
  obtain ⟨sup, usr, ub, g, sl, hl, h⟩ := s.takeException_frame c saved phase
  rw [h]

theorem State.MastersOnly.irqSeen (h : s.MastersOnly t) : t.irqSeen = s.irqSeen := by
  obtain ⟨m, p, d, l, rfl⟩ := h
  rfl

theorem State.drainPosted_irqSeen (s : State) : s.drainPosted.2.irqSeen = s.irqSeen := s.drainPosted_masters.irqSeen

theorem State.haltIfAsleep_irqSeen (s : State) : s.haltIfAsleep.irqSeen = s.irqSeen := by
  unfold State.haltIfAsleep
  split <;> rfl

theorem State.writeReg_cc_irqSeen (s : State) (v : Word) : (s.writeReg .cc v).irqSeen = s.irqSeen := by
  unfold State.writeReg
  dsimp only
  split
  · unfold State.userWriteCC
    dsimp only
    split <;> rfl
  · rw [State.haltIfAsleep_irqSeen, State.supWriteSCC_eq]
    split <;> rfl

/-- No shared operation of an instruction looks at the interrupt input. -/
theorem seen_upkeep (seen : Bool) : Upkeep (fun s => s.irqSeen = seen) (fun s => s.irqSeen = seen) where
  weaken h := h
  registers _ _ _ _ h _ := (State.withSet_irqSeen ..).trans h
  ownCC {s} v h := (s.writeReg_cc_irqSeen v).trans h
  userCC _ h _ := (State.haltIfAsleep_irqSeen _).trans h
  exception {s} {c} saved phase h _ := (s.takeException_irqSeen c saved phase).trans h
  read {s} a h := (s.busRead_masters a).irqSeen.trans h
  landed {s} h := s.drainPosted_irqSeen.trans h
  granted {s} h := s.grantBus_frame.irqSeen.trans h
  posting _ h := h
  drawing _ h := h
  locking h := h

theorem exec_irqSeen {i : Instr} (he : exec i s = .next t) : t.irqSeen = s.irqSeen := by
  by_cases hi : ∃ bit27 payload, i = .brk bit27 payload
  · obtain ⟨bit27, payload, rfl⟩ := hi
    cases he
    exact s.takeException_irqSeen ..
  · exact (seen_upkeep s.irqSeen).exec rfl (fun bit27 payload hb => hi ⟨bit27, payload, hb⟩) he

theorem State.deliverStoreError_irqSeen (s : State) : s.deliverStoreError.irqSeen = s.irqSeen :=
  State.takeException_irqSeen _ _ _ _

theorem State.landBeforeHalt_irqSeen {run : State → Host.Outcome State Fault Refusal}
    (hrun : ∀ {s t : State}, run s = .next t → t.irqSeen = s.irqSeen) (he : s.landBeforeHalt run = .next t) :
    t.irqSeen = s.irqSeen := by
  rcases s.landBeforeHalt_cases run with ⟨_, hl⟩ | ⟨_, _, _, hl⟩ | ⟨_, _, _, hl⟩
  · exact hrun (hl.symm.trans he)
  · exact (hrun (hl.symm.trans he)).trans s.drainPosted_irqSeen
  · cases hl.symm.trans he
    exact (State.deliverStoreError_irqSeen _).trans s.drainPosted_irqSeen

theorem State.keepInCache_irqSeen (s : State) (a w : Word) : (s.keepInCache a w).irqSeen = s.irqSeen := by
  unfold State.keepInCache
  split <;> rfl

theorem State.fetch_irqSeen (s : State) : s.fetch.2.irqSeen = s.irqSeen := by
  have hr := (s.busRead_masters s.active.pc).irqSeen
  unfold State.fetch
  split
  · rfl
  · generalize s.busRead s.active.pc = r at hr
    obtain ⟨_ | w, t⟩ := r
    · exact hr
    · dsimp only
      split
      · exact (t.keepInCache_irqSeen _ w).trans hr
      · exact hr

theorem State.runOne_irqSeen (he : s.runOne = .next t) : t.irqSeen = s.irqSeen := by
  have hf := s.fetch_irqSeen
  unfold State.runOne at he
  generalize s.fetch = f at hf he
  obtain ⟨_ | w, u⟩ := f
  · refine (State.landBeforeHalt_irqSeen (fun hs => ?_) he).trans hf
    cases hs
    exact State.takeException_irqSeen _ _ _ _
  · refine (State.landBeforeHalt_irqSeen (fun hs => ?_) he).trans ((u.countEvents_masters ..).irqSeen.trans hf)
    obtain ⟨v, hv, rfl⟩ := State.perform_next.mp hs
    have hkept := exec_irqSeen hv
    exact hkept

theorem State.settleStore_irqSeen (s : State) : s.settleStore.irqSeen = s.irqSeen := by
  rcases s.settleStore_cases with ⟨_, hs⟩ | ⟨_, _, hs⟩ | ⟨_, _, _, hs⟩ | ⟨_, _, _, hs⟩
  · rcases s.landHeld_cases with ⟨_, hl⟩ | ⟨_, hl⟩
    · rw [hs, hl, s.drainPosted_irqSeen]
    · rw [hs, hl]
      exact s.drainPosted_irqSeen
  · rw [hs]
  · rw [hs, s.drainPosted_irqSeen]
  · rw [hs, State.deliverStoreError_irqSeen, s.drainPosted_irqSeen]

theorem State.stepSwitch_irqSeen (s : State) (ran : Bool) : (s.stepSwitch ran).irqSeen = s.irqSeen := by
  unfold State.stepSwitch
  split <;> rfl

theorem State.settle_irqSeen (s : State) (ran : Bool) : (s.settle ran false).irqSeen = s.irqSeen := by
  rw [State.settle, if_neg (by simp), State.stepSwitch_irqSeen, State.settleStore_irqSeen]

theorem State.cpu_irqSeen (he : s.cpu false = .next t) : t.irqSeen = s.irqSeen := by
  unfold State.cpu at he
  split at he
  · cases he
    exact s.settle_irqSeen _
  · split at he
    · cases he
      rw [State.settle_irqSeen, State.deliverStoreError_irqSeen]
    · split at he
      · cases he
        rw [State.settle_irqSeen, State.haltIfAsleep_irqSeen]
      · split at he
        · cases he
          exact State.settle_irqSeen _ _
        · split at he
          · cases he
            exact s.settle_irqSeen _
          · split at he
            · rename_i u hr
              cases he
              rw [State.settle_irqSeen, State.runOne_irqSeen hr]
            · cases he
            · cases he

/-- The agents have acted on `s`: an input seen is still seen, unless a reset has left user mode. -/
def State.StaysSeen (s t : State) : Prop := t.gie = true → t.irqSeen = s.irqSeen

theorem State.StaysSeen.masters (h : s.StaysSeen t) (hm : t.MastersOnly u) : s.StaysSeen u := by
  obtain ⟨m, p, d, l, rfl⟩ := hm
  exact h

theorem State.StaysSeen.keepInCache (h : s.StaysSeen t) (a w : Word) : s.StaysSeen (t.keepInCache a w) := by
  unfold State.keepInCache
  split <;> exact h

theorem State.StaysSeen.prefetch (h : s.StaysSeen t) (a : Word) : s.StaysSeen (t.prefetch a) := by
  have hr := h.masters (t.busRead_masters a)
  unfold State.prefetch
  split
  · generalize t.busRead a = r at hr
    obtain ⟨_ | w, u⟩ := r
    · exact hr
    · exact State.StaysSeen.keepInCache hr a w
  · exact h

theorem State.StaysSeen.clock (h : s.StaysSeen t) : s.StaysSeen t.clock := by
  unfold State.clock
  split
  · dsimp only
    split
    · exact nofun
    · exact h
  · exact h

theorem State.StaysSeen.clocks (n : Nat) : ∀ {t : State}, s.StaysSeen t → s.StaysSeen (State.clocks n t) := by
  induction n with
  | zero => exact id
  | succ n ih => exact fun h => ih h.clock

theorem State.StaysSeen.foldl {α : Type} {act : State → α → State}
    (hact : ∀ {t : State} (a : α), s.StaysSeen t → s.StaysSeen (act t a)) (h : s.StaysSeen t) (l : List α) :
    s.StaysSeen (l.foldl act t) :=
  List.foldlRecOn l act h fun _ ht a _ => hact a ht

theorem State.agents_staysSeen (s : State) : s.StaysSeen s.agents :=
  have hs : s.StaysSeen s := fun _ => rfl
  have hmasters := hs.foldl (fun {t} p ht => ht.masters (t.masterWrite_frame p)) s.cur.masters
  have hevicted := hmasters.foldl (act := State.evict) (fun _ ht => ht) _
  have hfetched := hevicted.foldl (fun a ht => ht.prefetch a) _
  have hclocked := hfetched.clocks _
  (hclocked.masters (State.countEvents_masters _ _ _ _ 0)).masters (State.dmaMoves_frame _ _)

/-- An input that is high and seen at one boundary is seen at the next one that finds user mode and the input high. -/
theorem ready_irqSeen (h : s.irqSeen = true) (hg : (ready s).gie = true) (hi : (ready s).irq = true) :
    (ready s).irqSeen = true := by
  have hload : s.loadEnv.irqSeen = s.irqSeen := by
    obtain ⟨e, r, x, w, hl⟩ := s.loadEnv_frame
    rw [hl]
  have hseen : s.loadEnv.agents.irqSeen = true := (s.loadEnv.agents_staysSeen hg).trans (hload.trans h)
  have hirq : s.loadEnv.agents.irq = true := hi
  rw [ready, State.look_irqSeen, hirq, hseen]
  rfl

/-- In supervisor mode a high input is seen at every boundary. -/
theorem ready_irqSeen_supervisor (hg : (ready s).gie = false) (hi : (ready s).irq = true) : (ready s).irqSeen = true := by
  have hirq : s.loadEnv.agents.irq = true := hi
  have hgie : s.loadEnv.agents.gie = false := hg
  rw [ready, State.look_irqSeen, hirq, hgie]
  simp

end Sys2Proof.Machine

namespace Sys2Proof.Proofs

open Sys2Proof Sys2Proof.Machine Sys2Proof.Says

/-- Settles O42: the interrupt is taken where the input is seen, and an input seen in supervisor mode is still so at the return. -/
theorem interruptSwitchesMode : Obligations.InterruptSwitchesMode := by
  have htaken : ∀ s : State, Undisturbed s → (ready s).halted = false → (ready s).storeErr = false → (ready s).gie = true →
      (ready s).irq = true → (ready s).irqSeen = true → (ready s).lockLeft = 0 → (ready s).posted = none →
      step s = .next (entered (ready s) (ready s).usr.pc false) := by
    intro s hn hh he hg hi hseen hl hp
    have htakes : (ready s).takesInterrupt = true := by simp [State.takesInterrupt, hg, hi, hseen, hl]
    rw [step_undisturbed hn, State.cpu_interrupted hh he hg htakes hp]
  refine ⟨htaken, fun s => ?_, ?_, fun s hz => ?_, fun s => State.irq_zipBones, fun s hg => ?_⟩
  · simp [or_assoc]
  · intro s u hn hg hi hstep hnu hh he hgu hiu hl hp
    have hkept : u.irqSeen = (ready s).irqSeen := State.cpu_irqSeen ((step_undisturbed hn).symm.trans hstep)
    exact htaken u hnu hh he hgu hiu (ready_irqSeen (hkept.trans (ready_irqSeen_supervisor hg hi)) hgu hiu) hl hp
  · rw [State.irq_zipSystem hz, Pic.any_iff]
  · simp [State.takesInterrupt, hg]

/-- Settles O43: asleep in user mode or halted, the CPU's part of the step is the store in flight alone. -/
theorem waitingAndHaltedExecuteNothing : Obligations.WaitingAndHaltedExecuteNothing := by
  refine ⟨fun s hn hh he hg hs hi => ?_, fun s hn hh hp hw => ?_⟩
  · have hstep : step s = .next (ready s).settleStore := by rw [step_undisturbed hn, State.cpu_waiting hh he hg hs hi]
    refine ⟨hstep, fun hstays => ?_⟩
    rw [hstep]
    rcases hstays with hp | hd
    · rw [State.settleStore_none _ hp]
    · rw [State.settleStore_waits hh hd]
  · obtain ⟨e, r, x, w, m, c, p, d, i, hready⟩ := ready_frame hw
    have hhalted : (ready s).halted = true := by rw [hready]; exact hh
    have hsettled : (ready s).posted = none := by rw [hready]; exact hp
    refine ⟨ready s, by rw [step_undisturbed hn, State.cpu_halted hhalted, State.settleStore_none _ hsettled], hhalted, ?_⟩
    rw [hready]
    exact ⟨rfl, rfl, rfl, rfl, rfl, rfl, rfl, rfl⟩

/-- Settles O44: nothing is left to land, and STEP is looked at last. -/
theorem stepBitSwitchesBack : Obligations.StepBitSwitchesBack := by
  intro s q u w hn he hg hf hu hgu hstep hh hp
  have hruns : ∀ v, exec (decode w) (issued q w) = .next v → v.halted = false := by
    intro v hv
    cases hu.symm.trans hv
    exact hh
  rw [step_runs_at_once hn he hf (.inr hruns), hu, hg, concluded, State.settleStore_none (u.lockStep _) hp,
    State.stepSwitch_user (s := u.lockStep _) hgu hstep hh]
  rfl

end Sys2Proof.Proofs
end

section
/-! ## The peripheral registers (20_memory.md R77; 60_exceptions.md R355) -/

namespace Sys2Proof.Machine

open Sys2Proof Sys2Proof.Says

variable {cfg : Config} {s : State} {k : Nat}

/-! ### Which register takes a transaction -/

theorem periphIndex_of_hasRegister (hb : cfg.periphBase = 0xc0000000#32) (hr : HasRegister cfg k) :
    periphIndex cfg (registerAddress k) = some ⟨k, lt_of_hasRegister hr⟩ := by
  have hoff : (registerAddress k - cfg.periphBase).toNat = k := by rw [hb, toNat_sub_base_eq_iff (lt_of_hasRegister hr)]
  obtain ⟨i, hi⟩ := periphIndex_registerAddress hb hr
  have hval : i.val = k := by
    rw [periphIndex] at hi
    split at hi
    · split at hi
      · cases hi
        exact hoff
      · cases hi
    · cases hi
  rw [hi]
  exact congrArg some (Fin.ext hval)

section
variable (hb : s.cfg.periphBase = 0xc0000000#32) (hr : HasRegister s.cfg k) (hc : s.calm (registerAddress k))
include hb hc

theorem State.transact_registerAddress :
    s.transact (registerAddress k) = (some (.register ⟨k, lt_of_hasRegister hr⟩), s) := by
  simp [s.transact_calm _ hc, targetAt, inPeriphSpace_registerAddress (lt_of_hasRegister hr),
    periphIndex_of_hasRegister hb hr]

theorem State.busRead_registerAddress :
    s.busRead (registerAddress k) = (some (s.per.read s.cfg ⟨k, lt_of_hasRegister hr⟩), s) := by
  rw [State.busRead, State.transact_registerAddress hb hr hc]

theorem State.busWrite_registerAddress (w : Word) : s.busWrite (registerAddress k) w =
    (true, { s with per := s.per.write s.cfg s.extLines ⟨k, lt_of_hasRegister hr⟩ w }) := by
  rw [State.busWrite, State.transact_registerAddress hb hr hc]

end

/-- A register is at its address with what it reads as and what a write of it leaves. -/
theorem registerAt_of_read_write (hb : s.cfg.periphBase = 0xc0000000#32) (hr : HasRegister s.cfg k) {v : Word}
    {after : Word → Periph} (hread : s.per.read s.cfg ⟨k, lt_of_hasRegister hr⟩ = v)
    (hwrite : ∀ w, s.per.write s.cfg s.extLines ⟨k, lt_of_hasRegister hr⟩ w = after w) : RegisterAt s k v after := by
  intro hc
  refine ⟨?_, fun w => ?_⟩
  · rw [State.busRead_registerAddress hb hr hc, hread]
  · rw [State.busWrite_registerAddress hb hr hc, hwrite]

/-! ### What the registers read as and keep -/

theorem Pic.trip_none (p : Pic) : p.trip 0#15 = p := by
  rw [Pic.trip, BitVec.or_zero]

theorem Pic.trip_jiffies (p : Pic) (pulse : Bool) : p.trip (picPulse false pulse false false false) = pulsed p 2#15 pulse := by
  cases pulse with
  | false => exact p.trip_none
  | true => rfl

theorem Pic.trip_dma (p : Pic) (pulse : Bool) : p.trip (picPulse pulse false false false false) = pulsed p 1#15 pulse := by
  cases pulse with
  | false => exact p.trip_none
  | true => rfl

section
variable (p : Periph) (cfg : Config)

theorem Periph.read_counter (i : Fin 8) : p.read cfg ⟨8 + i.val, by omega⟩ = p.counters[i] := by
  fin_cases i <;> rfl

theorem Periph.write_counter (ext : BitVec 24) (i : Fin 8) (w : Word) :
    p.write cfg ext ⟨8 + i.val, by omega⟩ w = { p with counters := p.counters.set i w } := by
  fin_cases i <;> rfl

theorem Periph.write_jiffies (ext : BitVec 24) (w : Word) : p.write cfg ext 7 w =
    { p with jiff := (p.jiff.write w).1, pic := pulsed p.pic 2#15 (p.jiff.write w).2 } := by
  rw [← Pic.trip_jiffies]
  rfl

theorem Periph.write_dmaCtrl (ext : BitVec 24) (w : Word) : p.write cfg ext 16 w =
    { p with dma := (p.dma.writeCtrl w).1, pic := pulsed p.pic 1#15 (p.dma.writeCtrl w).2 } := by
  rw [← Pic.trip_dma]
  rfl

/-- The DMA controller's length and address registers take no write while a transfer runs. -/
theorem Periph.withDma_ite (d : Dma) : ({ p with dma := if p.dma.active then p.dma else d } : Periph) =
    if p.dma.active then p else { p with dma := d } := by
  split <;> rfl

theorem Periph.write_dmaLen (ext : BitVec 24) (w : Word) : p.write cfg ext 17 w =
    if p.dma.active then p else { p with dma := { p.dma with len := w, remaining := w } } := by
  rw [← Periph.withDma_ite]
  rfl

theorem Periph.write_dmaSrc (ext : BitVec 24) (w : Word) : p.write cfg ext 18 w =
    if p.dma.active then p else { p with dma := { p.dma with src := w, curSrc := w } } := by
  rw [← Periph.withDma_ite]
  rfl

theorem Periph.write_dmaDst (ext : BitVec 24) (w : Word) : p.write cfg ext 19 w =
    if p.dma.active then p else { p with dma := { p.dma with dst := w, curDst := w } } := by
  rw [← Periph.withDma_ite]
  rfl

end

/-! ### DMACTRL as read (R368) -/

theorem Dma.readCtrl_flags (d : Dma) : d.readCtrl.getLsbD 31 = d.active ∧ d.readCtrl.getLsbD 30 = d.err
    ∧ d.readCtrl.getLsbD 29 = d.noIncSrc ∧ d.readCtrl.getLsbD 28 = d.noIncDst ∧ d.readCtrl.getLsbD 27 = false
    ∧ d.readCtrl.getLsbD 15 = d.trigger := by
  simp only [Dma.readCtrl, BitVec.getLsbD_append]
  simp

theorem Dma.readCtrl_buffer (d : Dma) : d.readCtrl.extractLsb' 16 11 = BitVec.ofNat 11 d.buffer.length := by
  rw [Dma.readCtrl, BitVec.extractLsb'_append_eq_of_le (by decide), BitVec.extractLsb'_append_eq_of_le (by decide),
    BitVec.extractLsb'_append_eq_of_le (by decide)]
  exact BitVec.extractLsb'_append_eq_right

theorem Dma.readCtrl_line (d : Dma) : d.readCtrl.extractLsb' 10 5 = d.line := by
  rw [Dma.readCtrl, BitVec.extractLsb'_append_eq_of_le (by decide)]
  exact BitVec.extractLsb'_append_eq_right

theorem Dma.readCtrl_chunk (d : Dma) : d.readCtrl.extractLsb' 0 10 = d.chunk := BitVec.extractLsb'_append_eq_right

/-! ### Where no register is -/

theorem nothingAt_of_no_register {a : Word} (ha : 0xc0000000 ≤ a.toNat)
    (h : cfg.container = .zipBones ∨ 0xc0000014 ≤ a.toNat
      ∨ (cfg.includeCounters = false ∧ 0xc0000008 ≤ a.toNat ∧ a.toNat < 0xc0000010)
      ∨ (cfg.includeDma = false ∧ 0xc0000010 ≤ a.toNat)) : NothingAt cfg a := by
  refine .inr ⟨ha, fun k hr heq => ?_⟩
  have hk := lt_of_hasRegister hr
  have hnat : a.toNat = 0xc0000000 + k := by rw [heq, toNat_registerAddress hk]
  obtain ⟨hz, hrange⟩ := hr
  rcases h with hbones | hpast | ⟨hn, hlow, hhigh⟩ | ⟨hn, hlow⟩
  · cases hbones.symm.trans hz
  · omega
  · rcases hrange with h8 | ⟨_, hcounters⟩ | ⟨h16, _, _⟩
    · omega
    · simp [hn] at hcounters
    · omega
  · rcases hrange with h8 | ⟨h16, _⟩ | ⟨_, _, hdma⟩
    · omega
    · omega
    · simp [hn] at hdma

end Sys2Proof.Machine

namespace Sys2Proof.Proofs

open Sys2Proof Sys2Proof.Machine Sys2Proof.Says

/-- Settles O52: each register stands at its offset, and every other address of the space is nothing's. -/
theorem peripheralMap : Obligations.PeripheralMap := by
  refine ⟨fun s hb hz => ?map, fun s hb hz hcounters k => ?counters, fun s hb hz hdma => ?dma, fun s a w hb ha h => ?nothing⟩
  case map =>
    have hr {k : Nat} (hk : k < 8) : HasRegister s.cfg k := ⟨hz, .inl hk⟩
    refine ⟨registerAt_of_read_write hb (hr (by decide)) rfl fun _ => rfl,
      registerAt_of_read_write hb (hr (by decide)) rfl fun _ => rfl,
      registerAt_of_read_write hb (hr (by decide)) rfl fun _ => rfl,
      ⟨ctricLevel s.cfg.ctricMap s.extLines, fun i hi => linesOf_getLsbD _ i hi,
        registerAt_of_read_write hb (hr (by decide)) rfl fun _ => rfl⟩,
      registerAt_of_read_write hb (hr (by decide)) rfl fun _ => rfl,
      registerAt_of_read_write hb (hr (by decide)) rfl fun _ => rfl,
      registerAt_of_read_write hb (hr (by decide)) rfl fun _ => rfl,
      registerAt_of_read_write hb (hr (by decide)) rfl fun w => s.per.write_jiffies s.cfg s.extLines w⟩
  case counters =>
    exact registerAt_of_read_write hb ⟨hz, .inr (.inl ⟨by omega, hcounters⟩)⟩ (s.per.read_counter s.cfg k)
      (s.per.write_counter s.cfg s.extLines k)
  case dma =>
    have hr {k : Nat} (hk : 16 ≤ k ∧ k < 20) : HasRegister s.cfg k := ⟨hz, .inr (.inr ⟨hk.1, hk.2, hdma⟩)⟩
    obtain ⟨hactive, herr, hsrc, hdst, hzero, htrigger⟩ := s.per.dma.readCtrl_flags
    refine ⟨⟨s.per.dma.readCtrl, registerAt_of_read_write hb (hr (by decide)) rfl (s.per.write_dmaCtrl s.cfg s.extLines),
      hactive, herr, hsrc, hdst, hzero, s.per.dma.readCtrl_buffer, htrigger, s.per.dma.readCtrl_line,
      s.per.dma.readCtrl_chunk⟩, ?_, ?_, ?_⟩
    · exact registerAt_of_read_write hb (hr (by decide)) rfl (s.per.write_dmaLen s.cfg s.extLines)
    · exact registerAt_of_read_write hb (hr (by decide)) rfl (s.per.write_dmaSrc s.cfg s.extLines)
    · exact registerAt_of_read_write hb (hr (by decide)) rfl (s.per.write_dmaDst s.cfg s.extLines)
  case nothing =>
    have hfails := State.transact_fails hb (.inr (.inr (nothingAt_of_no_register ha h)))
    exact ⟨State.busRead_of_transact_none hfails, State.busWrite_of_transact_none w hfails⟩

end Sys2Proof.Proofs
end

section
/-! ## The debug port's control register (60_exceptions.md R371, R372) -/

namespace Sys2Proof.Machine

open Sys2Proof Sys2Proof.Says

variable {s t u : State}

/-! ### The halt (R371) -/

theorem State.landHeld_withSet (s : State) (user : Bool) (rs : RegSet) :
    (s.withSet user rs).landHeld = s.landHeld.withSet user rs := by
  simp only [State.landHeld, State.drainPosted_withSet]
  generalize s.drainPosted = r
  obtain ⟨_ | _, t⟩ := r <;> cases user <;> rfl

theorem State.landHeld_storeErr (s : State) :
    s.landHeld.storeErr = true ↔ s.storeErr = true ∨ s.drainPosted.1 = false := by
  obtain ⟨m, p, d, l, hd⟩ := s.drainPosted_masters
  rcases s.landHeld_cases with ⟨hok, hl⟩ | ⟨hok, hl⟩
  · rw [hl, hok, hd]
    simp
  · rw [hl, hok]
    simp

/-- The store of a stopped CPU reaches memory or the peripherals, or leaves its error waiting. -/
theorem State.landHeld_frame (s : State) : ∃ p d l e, s.landHeld =
    { s with posted := none, mem := s.drainPosted.2.mem, per := p, draws := d, cur := { s.cur with fates := l }, storeErr := e } := by
  obtain ⟨m, p, d, l, hd⟩ := s.drainPosted_masters
  rcases s.landHeld_cases with ⟨_, hl⟩ | ⟨_, hl⟩
  · exact ⟨p, d, l, s.storeErr, by rw [hl, hd]⟩
  · exact ⟨p, d, l, true, by rw [hl, hd]⟩

/-- A hold at the boundary completes the store in flight, clears PHASE and ends a locked sequence. -/
theorem State.debugHalt_running (h : s.halted = false) : s.debugHalt =
    { s.landHeld.withSet s.gie { s.active with phase := false } with halted := true, lockLeft := 0 } := by
  rw [State.debugHalt, if_neg (by simp [h]), State.withActive, State.landHeld_withSet]

/-! ### The single step (R372) -/

theorem State.loadEnv_halted (s : State) : s.loadEnv.halted = s.halted := by
  obtain ⟨e, r, x, d, hload⟩ := s.loadEnv_frame
  rw [hload]

/-- The host's write of ZIPCTRL reaches a halted CPU. -/
theorem step_writeCtrl_halted {w : Word} (hr : s.loadEnv.cur.reset = false) (hh : s.halted = true)
    (hw : s.loadEnv.cur.host = some (.writeCtrl w)) :
    step s = (s.loadEnv.writeCtrl w).1.agents.look.cpu (s.loadEnv.writeCtrl w).2 := by
  have haccess : s.loadEnv.hostAccess = some (s.loadEnv.writeCtrl w) := by
    simp [State.hostAccess, hw, State.inLock, State.loadEnv_halted, hh]
  simp only [step, State.cycle, hr, haccess]
  rfl

/-- The instruction of a single step, and what ends the step. -/
theorem State.cpu_single (h : Executing s) (hr : s.runOne = .next t) : s.cpu true = .next (t.settle s.gie true) := by
  obtain ⟨hh, he, hs, hi⟩ := h
  have hno : s.takesInterrupt = false := hi
  simp [State.cpu, hh, he, hs, hno, hr]

/-- The debug port holds a CPU that a single step leaves running. -/
theorem State.settle_single_running (hh : t.halted = false) (ran : Bool) :
    t.settle ran true = (t.stepSwitch ran).debugHalt := by
  simp [State.settle, hh]

theorem State.settleStore_of_halted (hh : t.halted = true) : t.settleStore = t.landHeld := by
  simp [State.settleStore, hh]

theorem State.settleStore_halted (hh : t.halted = true) : t.settleStore.halted = true := by
  rw [State.settleStore_of_halted hh, State.landHeld_halted, hh]

theorem State.settle_single_halted (hh : t.halted = true) (ran : Bool) : t.settle ran true = t.settleStore := by
  simp [State.settle, hh, State.stepSwitch_halted_eq (State.settleStore_halted hh)]

/-! ### What ZIPCTRL reads as (R371) -/

theorem State.readCtrl_bits (s : State) : s.readCtrl.getLsbD 13 = s.gie ∧ s.readCtrl.getLsbD 12 = s.sleep
    ∧ s.readCtrl.getLsbD 11 = false ∧ s.readCtrl.getLsbD 10 = s.halted ∧ s.readCtrl.getLsbD 9 = !s.halted
    ∧ s.readCtrl.getLsbD 8 = false ∧ s.readCtrl.getLsbD 7 = s.irq ∧ s.readCtrl.getLsbD 6 = false := by
  simp only [State.readCtrl, BitVec.getLsbD_append]
  simp

theorem State.readCtrl_address (s : State) : s.readCtrl.extractLsb' 0 6 = s.dbgAddr := BitVec.extractLsb'_append_eq_right

theorem State.readCtrl_wires (s : State) : s.readCtrl.extractLsb' 14 18 = s.extLines.extractLsb' 0 18 := by
  rw [State.readCtrl, BitVec.extractLsb'_append_eq_of_le (by decide), BitVec.extractLsb'_append_eq_of_le (by decide),
    BitVec.extractLsb'_append_eq_of_le (by decide), BitVec.extractLsb'_append_eq_of_le (by decide),
    BitVec.extractLsb'_append_eq_of_le (by decide), BitVec.extractLsb'_append_eq_of_le (by decide),
    BitVec.extractLsb'_append_eq_of_le (by decide), BitVec.extractLsb'_append_eq_of_le (by decide)]
  exact BitVec.extractLsb'_append_eq_left

end Sys2Proof.Machine

namespace Sys2Proof.Proofs

open Sys2Proof Sys2Proof.Machine Sys2Proof.Says

/-- Settles O59: the commands act in the order of `command`, and a single step ends in the hold unless its instruction halts. -/
theorem debugPortControls : Obligations.DebugPortControls := by
  refine ⟨fun _ hh => if_pos hh, ?halt, ?commands, ?release, ?single, ?reads⟩
  case halt =>
    rintro s t hh rfl
    obtain ⟨p, d, l, e, hl⟩ := s.landHeld_frame
    have he : e = true ↔ s.storeErr = true ∨ s.drainPosted.1 = false := by rw [← s.landHeld_storeErr, hl]
    rw [State.debugHalt_running hh, hl, ← he]
    cases hg : s.gie <;> simp [State.withSet, State.active, State.set, hg]
  case commands =>
    rintro s t w h6 rfl
    rw [State.writeCtrl_plain h6]
    exact ⟨State.command_halt, State.command_release, State.command_step⟩
  case release =>
    intro s w h6 h8 h10 h11
    rw [State.writeCtrl_plain h6, State.command_release h8 h10, h11]
    rfl
  case single =>
    intro s p q u w i hreset hh hw h6 h8 hp he hf hq hu
    have hstepped : (s.loadEnv.writeCtrl w).2 = true := by rw [State.writeCtrl_plain h6, State.command_step h8]
    have hstep : step s = p.cpu true := by rw [step_writeCtrl_halted hreset hh hw, ← hp, hstepped]
    have hrun : p.runOne = .next (u.lockStep (decode i)) := by
      rw [State.runOne_fetched hf, State.landBeforeHalt_direct (.inl ((issued_posted q i).trans hq))]
      exact State.perform_next.mpr ⟨u, hu, rfl⟩
    refine ⟨_, hstep.trans (State.cpu_single he hrun), ?_⟩
    cases hx : u.halted with
    | false =>
      rw [State.settle_single_running (t := u.lockStep (decode i)) hx]
      exact ⟨State.debugHalt_halted _, fun _ => rfl, nofun⟩
    | true =>
      rw [State.settle_single_halted (t := u.lockStep (decode i)) hx]
      exact ⟨State.settleStore_halted hx, nofun, fun _ => rfl⟩
  case reads =>
    intro s
    obtain ⟨hgie, hsleep, h11, hhalted, hrunning, h8, hirq, h6⟩ := s.readCtrl_bits
    exact ⟨hgie, hsleep, hhalted, hrunning, hirq, s.readCtrl_address, s.readCtrl_wires, h11, h8, h6⟩

end Sys2Proof.Proofs
end

section
/-! ## The debug port's data register (60_exceptions.md R374 to R377) -/

namespace Sys2Proof.Machine

open Sys2Proof Sys2Proof.Says

variable {s : State} {cfg : Config} {r : Reg} {user : Bool}

/-! ### Addresses of the two sets (R374) -/

/-- The debug port's address `a` names the register `r` of a set. -/
def Addresses (a : BitVec 6) (user : Bool) (r : Reg) : Prop :=
  a.toNat < 32 ∧ a.getLsbD 4 = user ∧ decodeReg (a.extractLsb' 0 4) = r

theorem addresses_supervisor_gpr : ∀ n : Fin 14, Addresses (BitVec.ofNat 6 n.val) false (.gpr n) := by
  unfold Addresses
  decide

theorem addresses_user_gpr : ∀ n : Fin 14, Addresses (BitVec.ofNat 6 (16 + n.val)) true (.gpr n) := by
  unfold Addresses
  decide

theorem addresses_supervisor_cc : Addresses 14#6 false .cc := ⟨by decide, rfl, rfl⟩

theorem addresses_supervisor_pc : Addresses 15#6 false .pc := ⟨by decide, rfl, rfl⟩

theorem addresses_user_cc : Addresses 30#6 true .cc := ⟨by decide, rfl, rfl⟩

theorem addresses_user_pc : Addresses 31#6 true .pc := ⟨by decide, rfl, rfl⟩

theorem State.readData_register (h : Addresses s.dbgAddr user r) : s.readData = { s with dbgOut := s.readIn user r } := by
  obtain ⟨hlow, hset, hreg⟩ := h
  rw [State.readData, if_pos hlow, hset, hreg]

theorem State.writeData_gpr {n : Fin 14} (h : Addresses s.dbgAddr user (.gpr n)) (w : Word) :
    s.writeData w = s.writeGpr user n w := by
  obtain ⟨hlow, hset, hreg⟩ := h
  rw [State.writeData, if_pos hlow, hset, hreg]

theorem State.writeData_pc (h : Addresses s.dbgAddr user .pc) (w : Word) : s.writeData w = s.writePc user w := by
  obtain ⟨hlow, hset, hreg⟩ := h
  rw [State.writeData, if_pos hlow, hset, hreg]

theorem State.writeData_cc (h : Addresses s.dbgAddr user .cc) (w : Word) :
    s.writeData w = if user then s.supWriteUCC w else s.supWriteSCC w := by
  obtain ⟨hlow, hset, hreg⟩ := h
  rw [State.writeData, if_pos hlow, hset, hreg]

/-! ### Addresses of the peripherals (R376) -/

theorem debugPeriph_of_hasRegister : ∀ {k : Fin 20}, HasRegister cfg k.val →
    debugPeriph cfg (BitVec.ofNat 6 (32 + k.val)) = some k := by
  intro k h
  have hnat : (BitVec.ofNat 6 (32 + k.val)).toNat = 32 + k.val := by
    rw [BitVec.toNat_ofNat, Nat.mod_eq_of_lt (by omega)]
  have hpresent : periphPresent cfg k = true := (periphPresent_iff k.isLt).mpr h
  simp [debugPeriph, hnat, hpresent, show 32 + k.val < 52 by omega]

theorem debugPeriph_of_no_register {a : BitVec 6} (h : ¬HasRegister cfg (a.toNat - 32)) : debugPeriph cfg a = none := by
  unfold debugPeriph
  split
  · exact if_neg fun hpresent => h ((periphPresent_iff _).mp hpresent)
  · rfl

section
variable (hpast : 32 ≤ s.dbgAddr.toNat)
include hpast

theorem State.readData_peripheral {k : Fin 20} (h : debugPeriph s.cfg s.dbgAddr = some k) :
    s.readData = { s with dbgOut := s.per.read s.cfg k } := by
  rw [State.readData, if_neg (by omega), h]

theorem State.writeData_peripheral {k : Fin 20} (h : debugPeriph s.cfg s.dbgAddr = some k) (w : Word) :
    s.writeData w = { s with per := s.per.write s.cfg s.extLines k w } := by
  rw [State.writeData, if_neg (by omega), h]

theorem State.readData_nothing (h : debugPeriph s.cfg s.dbgAddr = none) :
    s.readData = { s with dbgOut := Config.freeWord s.draws, draws := s.draws + 1 } := by
  rw [State.readData, if_neg (by omega), h]
  rfl

theorem State.writeData_nothing (h : debugPeriph s.cfg s.dbgAddr = none) (w : Word) : s.writeData w = s := by
  rw [State.writeData, if_neg (by omega), h]

end

/-! ### The one fault (R375) -/

variable {f : Fault}

theorem State.perform_ne_fault (i : Instr) (s : State) : State.perform i s ≠ .fault f := by
  unfold State.perform
  cases h : exec i s with
  | fault r => exact absurd h (exec_ne_fault i s r)
  | _ => simp

theorem State.landBeforeHalt_ne_fault {run : State → Host.Outcome State Fault Refusal} (hrun : ∀ t, run t ≠ .fault f) :
    s.landBeforeHalt run ≠ .fault f := by
  rcases s.landBeforeHalt_cases run with ⟨_, hl⟩ | ⟨_, _, _, hl⟩ | ⟨_, _, _, hl⟩
  · rw [hl]
    exact hrun s
  · rw [hl]
    exact hrun _
  · simp [hl]

theorem State.runOne_ne_fault (s : State) : s.runOne ≠ .fault f := by
  unfold State.runOne
  split
  · exact State.landBeforeHalt_ne_fault fun t => by simp
  · exact State.landBeforeHalt_ne_fault (State.perform_ne_fault _)

theorem State.cpu_ne_fault (s : State) (single : Bool) : s.cpu single ≠ .fault f := by
  have hone := s.runOne_ne_fault (f := f)
  unfold State.cpu
  split_ifs
  iterate 5 exact nofun
  cases hr : s.runOne with
  | fault r =>
    rw [hr] at hone
    exact hone
  | _ => simp

theorem State.hostAccess_eq_none_iff (s : State) : s.hostAccess = none ↔
    s.halted = false ∧ (s.lockLeft = 0 ∨ s.sleep = true) ∧ ∃ w, s.cur.host = some (.writeData w) := by
  cases hc : s.cur.host with
  | none => simp [State.hostAccess, hc]
  | some a =>
    cases a with
    | writeData w =>
      cases hh : s.halted with
      | true => simp [State.hostAccess, hc, State.inLock, hh]
      | false => simp [State.hostAccess, hc, State.inLock, hh, HostAccess.resets, imp_iff_not_or]
    | _ =>
      simp only [State.hostAccess, hc]
      split <;> simp

theorem State.cycle_fault_iff (s : State) : (∃ r, s.cycle = .fault r) ↔ s.cur.reset = false ∧ s.hostAccess = none := by
  unfold State.cycle
  split
  next hr => simp [hr]
  next hr =>
    have hno : s.cur.reset = false := by simpa using hr
    cases ha : s.hostAccess with
    | none => exact ⟨fun _ => ⟨hno, rfl⟩, fun _ => ⟨_, rfl⟩⟩
    | some p => simp [State.cpu_ne_fault]

end Sys2Proof.Machine

namespace Sys2Proof.Proofs

open Sys2Proof Sys2Proof.Machine Sys2Proof.Says

/-- Settles O60: an address below 32 names a register of a set, the others a peripheral's or none; only the host's access faults. -/
theorem debugPortReachesTheRegisters : Obligations.DebugPortReachesTheRegisters := by
  refine ⟨fun s n ha => ?supGpr, fun s n ha => ?usrGpr, fun s ha => ?supPc, fun s ha => ?usrPc, fun s ha => ?sCC, fun s ha => ?uCC,
    fun s k hb ha hk => ?peripheral, fun s hpast hno => ?nothing, fun s => ?fault⟩
  case supGpr =>
    have h : Addresses s.dbgAddr false (.gpr n) := ha ▸ addresses_supervisor_gpr n
    exact ⟨State.readData_register h, State.writeData_gpr h⟩
  case usrGpr =>
    have h : Addresses s.dbgAddr true (.gpr n) := ha ▸ addresses_user_gpr n
    exact ⟨State.readData_register h, State.writeData_gpr h⟩
  case supPc =>
    have h : Addresses s.dbgAddr false .pc := ha ▸ addresses_supervisor_pc
    exact ⟨State.readData_register h, State.writeData_pc h⟩
  case usrPc =>
    have h : Addresses s.dbgAddr true .pc := ha ▸ addresses_user_pc
    exact ⟨State.readData_register h, State.writeData_pc h⟩
  case sCC =>
    have h : Addresses s.dbgAddr false .cc := ha ▸ addresses_supervisor_cc
    exact ⟨State.readData_register h, fun w => (State.writeData_cc h w).trans (s.supWriteSCC_eq w)⟩
  case uCC =>
    have h : Addresses s.dbgAddr true .cc := ha ▸ addresses_user_cc
    exact ⟨State.readData_register h, fun w => (State.writeData_cc h w).trans (s.supWriteUCC_eq w)⟩
  case peripheral =>
    have hpast : 32 ≤ s.dbgAddr.toNat := by
      rw [ha, BitVec.toNat_ofNat]
      omega
    have hnamed : debugPeriph s.cfg s.dbgAddr = some k := ha ▸ debugPeriph_of_hasRegister hk
    refine ⟨⟨_, State.readData_peripheral hpast hnamed, State.busRead_registerAddress hb hk⟩, fun w => ?_⟩
    have hwritten := State.writeData_peripheral hpast hnamed w
    exact ⟨_, hwritten, fun hc => (State.busWrite_registerAddress hb hk hc w).trans (congrArg (true, ·) hwritten.symm)⟩
  case nothing =>
    have hnone := debugPeriph_of_no_register hno
    exact ⟨⟨_, _, State.readData_nothing hpast hnone⟩, State.writeData_nothing hpast hnone⟩
  case fault =>
    obtain ⟨e, r, x, d, hload⟩ := s.loadEnv_frame
    have hhalted : s.loadEnv.halted = s.halted := s.loadEnv_halted
    have hlock : s.loadEnv.lockLeft = s.lockLeft := by rw [hload]
    have hsleep : s.loadEnv.sleep = s.sleep := by rw [hload]
    rw [step, State.cycle_fault_iff, State.hostAccess_eq_none_iff, hhalted, hlock, hsleep]

end Sys2Proof.Proofs
end

section
/-! ## A DMA copy (60_exceptions.md R369) -/

namespace Sys2Proof.Machine

open Sys2Proof Sys2Proof.Says

variable {s : State}

/-! ### Blocks of memory -/

/-- The `n` words of memory from `a` on. -/
def wordsFrom (m : Memory) (a : Word) : Nat → List Word
  | 0 => []
  | n + 1 => Memory.fetch m a :: wordsFrom m (a + 1#32) n

/-- Memory with the words written from `a` on, lowest address first. -/
def Memory.writeWords (m : Memory) (a : Word) : List Word → Memory
  | [] => m
  | v :: vs => Memory.writeWords (Memory.write m a.toNat v) (a + 1#32) vs

theorem length_wordsFrom (m : Memory) (n : Nat) : ∀ a : Word, (wordsFrom m a n).length = n := by
  induction n with
  | zero => exact fun _ => rfl
  | succ n ih => exact fun a => congrArg (· + 1) (ih (a + 1#32))

theorem getElem?_wordsFrom (m : Memory) : ∀ {n i : Nat} (a : Word), i < n →
    (wordsFrom m a n)[i]? = some (Memory.fetch m (a + BitVec.ofNat 32 i)) := by
  intro n
  induction n with
  | zero => exact fun _ h => absurd h (Nat.not_lt_zero _)
  | succ n ih =>
    intro i a h
    cases i with
    | zero => simp [wordsFrom]
    | succ i =>
      rw [wordsFrom, List.getElem?_cons_succ, ih _ (by omega), add_ofNat_succ]

/-- A write of a block leaves every word outside it. -/
theorem Memory.fetch_writeWords_other (l : List Word) : ∀ {m : Memory} {a x : Word},
    (∀ i, i < l.length → x ≠ a + BitVec.ofNat 32 i) → Memory.fetch (Memory.writeWords m a l) x = Memory.fetch m x := by
  induction l with
  | nil => exact fun _ => rfl
  | cons v l ih =>
    intro m a x h
    have hfirst : x ≠ a := by simpa using h 0 (Nat.succ_pos _)
    have hrest : ∀ i, i < l.length → x ≠ a + 1#32 + BitVec.ofNat 32 i := by
      intro i hi
      rw [add_ofNat_succ]
      exact h (i + 1) (Nat.succ_lt_succ hi)
    rw [Memory.writeWords, ih hrest, Memory.fetch_write, if_neg hfirst]

/-- A block no longer than the address space stands where it was written. -/
theorem Memory.fetch_writeWords (l : List Word) : ∀ {m : Memory} {a v : Word} {i : Nat}, l.length ≤ 2 ^ 32 → l[i]? = some v →
    Memory.fetch (Memory.writeWords m a l) (a + BitVec.ofNat 32 i) = v := by
  induction l with
  | nil => exact fun _ h => nomatch h
  | cons w l ih =>
    intro m a v i hlen hv
    have hshort : l.length < 2 ^ 32 := hlen
    cases i with
    | zero =>
      have hpast : ∀ j, j < l.length → a + BitVec.ofNat 32 0 ≠ a + 1#32 + BitVec.ofNat 32 j := fun j hj => by bv_omega
      rw [Memory.writeWords, Memory.fetch_writeWords_other l hpast, Memory.fetch_write, if_pos (by simp)]
      exact Option.some.inj hv
    | succ i =>
      rw [Memory.writeWords, ← add_ofNat_succ a i]
      exact ih hshort.le hv

/-! ### The two bursts -/

theorem ramReady_next {a : Word} {n : Nat} {t : State} (h : ∀ i, i < n + 1 → s.ramReady (a + BitVec.ofNat 32 i))
    (hcfg : t.cfg = s.cfg) (hcur : t.cur = s.cur) : ∀ i, i < n → t.ramReady (a + 1#32 + BitVec.ofNat 32 i) := by
  intro i hi
  rw [add_ofNat_succ]
  exact State.ramReady_of_eq (h (i + 1) (Nat.succ_lt_succ hi)) hcfg hcur

theorem ramReady_first_of {a : Word} {n : Nat} (h : ∀ i, i < n + 1 → s.ramReady (a + BitVec.ofNat 32 i)) : s.ramReady a := by
  simpa using h 0 (Nat.succ_pos n)

/-- A word of a read burst. -/
def State.dmaTaken (s : State) : State :=
  { s with per := { s.per with dma := { s.per.dma with
      buffer := s.per.dma.buffer ++ [Memory.fetch s.mem s.per.dma.curSrc]
      curSrc := s.per.dma.curSrc + 1#32 } } }

/-- A word of a write burst. -/
def State.dmaPut (s : State) (v : Word) : State :=
  { s with
    mem := Memory.write s.mem s.per.dma.curDst.toNat v
    per := { s.per with dma := { s.per.dma with
      remaining := s.per.dma.remaining - 1#32
      curDst := s.per.dma.curDst + 1#32 } } }

theorem State.dmaRead_succ {n : Nat} (hinc : s.per.dma.noIncSrc = false) (hready : s.ramReady s.per.dma.curSrc) :
    State.dmaRead (n + 1) s = State.dmaRead n s.dmaTaken := by
  simp only [State.dmaRead, State.busRead_ram _ _ hready, hinc, dmaNext, Bool.false_eq_true, if_false, State.dmaTaken]

theorem State.dmaWrite_cons {v : Word} {l : List Word} (hinc : s.per.dma.noIncDst = false)
    (hready : s.ramReady s.per.dma.curDst) : State.dmaWrite (v :: l) s = State.dmaWrite l (s.dmaPut v) := by
  simp only [State.dmaWrite, State.busWrite_ram _ _ _ hready, hinc, dmaNext, Bool.false_eq_true, if_false, State.dmaPut]

/-- A read burst from RAM at incrementing addresses puts the block into the buffer. -/
theorem State.dmaRead_ram (n : Nat) : ∀ {s : State}, s.per.dma.noIncSrc = false →
    (∀ i, i < n → s.ramReady (s.per.dma.curSrc + BitVec.ofNat 32 i)) →
    State.dmaRead n s = (true, { s with per := { s.per with dma := { s.per.dma with
      buffer := s.per.dma.buffer ++ wordsFrom s.mem s.per.dma.curSrc n
      curSrc := s.per.dma.curSrc + BitVec.ofNat 32 n } } }) := by
  induction n with
  | zero =>
    intro s _ _
    simp [State.dmaRead, wordsFrom]
  | succ n ih =>
    intro s hinc hready
    rw [State.dmaRead_succ hinc (ramReady_first_of hready), ih (s := s.dmaTaken) hinc (ramReady_next hready rfl rfl)]
    simp only [State.dmaTaken, add_ofNat_succ, List.append_assoc, wordsFrom, List.singleton_append]

/-- A write burst to RAM at incrementing addresses. -/
theorem State.dmaWrite_ram (l : List Word) : ∀ {s : State}, s.per.dma.noIncDst = false →
    (∀ i, i < l.length → s.ramReady (s.per.dma.curDst + BitVec.ofNat 32 i)) →
    State.dmaWrite l s = (true, { s with
      mem := Memory.writeWords s.mem s.per.dma.curDst l
      per := { s.per with dma := { s.per.dma with
        remaining := s.per.dma.remaining - BitVec.ofNat 32 l.length
        curDst := s.per.dma.curDst + BitVec.ofNat 32 l.length } } }) := by
  induction l with
  | nil =>
    intro s _ _
    simp [State.dmaWrite, Memory.writeWords]
  | cons v l ih =>
    intro s hinc hready
    have hcount : ∀ w : Word, w - 1#32 - BitVec.ofNat 32 l.length = w - BitVec.ofNat 32 (l.length + 1) := fun w => by bv_omega
    rw [State.dmaWrite_cons hinc (ramReady_first_of hready), ih (s := s.dmaPut v) hinc (ramReady_next hready rfl rfl)]
    simp only [State.dmaPut, add_ofNat_succ, hcount, Memory.writeWords, List.length_cons]

/-! ### The two grants of a transfer of one chunk -/

/-- The block is in the buffer. -/
def State.dmaLoaded (s : State) : State :=
  { s with per := { s.per with dma := { s.per.dma with
      buffer := wordsFrom s.mem s.per.dma.curSrc s.per.dma.remaining.toNat
      curSrc := s.per.dma.curSrc + s.per.dma.remaining } } }

/-- The block is at its destination, the controller idle. -/
def State.dmaStored (s : State) : State :=
  { s with
    mem := Memory.writeWords s.mem s.per.dma.curDst s.per.dma.buffer
    per := { s.per with
      dma := { s.per.dma with
        active := false, buffer := [], remaining := 0#32, curDst := s.per.dma.curDst + s.per.dma.remaining }
      pic := s.per.pic.trip (picPulse true false false false false) } }

section
variable (hz : s.cfg.container = .zipSystem) (hfree : s.busFree = true) (hactive : s.per.dma.active = true)
include hz hfree hactive

theorem State.dmaMove_read (hempty : s.per.dma.buffer = []) (htrigger : s.per.dma.trigger = false)
    (hinc : s.per.dma.noIncSrc = false)
    (hchunk : s.per.dma.remaining.toNat ≤ (if s.per.dma.chunk = 0#10 then 1024 else s.per.dma.chunk.toNat))
    (hready : ∀ i, i < s.per.dma.remaining.toNat → s.ramReady (s.per.dma.curSrc + BitVec.ofNat 32 i)) :
    s.dmaMove = s.dmaLoaded := by
  have hgo : s.dmaTriggered = true := by simp [State.dmaTriggered, htrigger]
  have hburst : s.per.dma.burst = s.per.dma.remaining.toNat := Nat.min_eq_right hchunk
  have hread := State.dmaRead_ram _ hinc hready
  rw [hempty, List.nil_append, BitVec.ofNat_toNat, BitVec.setWidth_eq] at hread
  simp [State.dmaMove, hz, hfree, hactive, hempty, hgo, hburst, hread, State.dmaLoaded]

theorem State.dmaMove_write (hlen : s.per.dma.buffer.length = s.per.dma.remaining.toNat)
    (hpos : 0 < s.per.dma.remaining.toNat) (hinc : s.per.dma.noIncDst = false)
    (hready : ∀ i, i < s.per.dma.remaining.toNat → s.ramReady (s.per.dma.curDst + BitVec.ofNat 32 i)) :
    s.dmaMove = s.dmaStored := by
  have hfull : s.per.dma.buffer ≠ [] := List.ne_nil_of_length_pos (hlen ▸ hpos)
  have hwrite := State.dmaWrite_ram _ hinc (hlen ▸ hready)
  rw [hlen, BitVec.ofNat_toNat, BitVec.setWidth_eq, BitVec.sub_self] at hwrite
  simp [State.dmaMove, hz, hfree, hactive, hfull, hwrite, State.dmaWritten, State.dmaStored]

end

end Sys2Proof.Machine

namespace Sys2Proof.Proofs

open Sys2Proof Sys2Proof.Machine Sys2Proof.Says

/-- Settles O58: the first grant reads the block, the second writes it. -/
theorem dmaCopiesTheBlock : Obligations.DmaCopiesTheBlock := by
  intro s hz hlock hposted hactive hempty htrigger hsrc hdst hpos hchunk hready
  have hfree : s.busFree = true := by simp [State.busFree, hlock, hposted]
  have hread : s.dmaMove = s.dmaLoaded :=
    State.dmaMove_read hz hfree hactive hempty htrigger hsrc hchunk fun i hi => (hready i hi).1
  have hlen : s.dmaLoaded.per.dma.buffer.length = s.dmaLoaded.per.dma.remaining.toNat := length_wordsFrom _ _ _
  have hwrite : s.dmaLoaded.dmaMove = s.dmaLoaded.dmaStored :=
    State.dmaMove_write hz hfree hactive hlen hpos hdst fun i hi => State.ramReady_of_eq (hready i hi).2 rfl rfl
  rw [hread, hwrite]
  refine ⟨rfl, rfl, ?_, fun i hi => ?_, fun x hx => ?_⟩
  · exact (Pic.trip_getLsbD ..).trans (Bool.or_true _)
  · have hfits : s.dmaLoaded.per.dma.buffer.length ≤ 2 ^ 32 := hlen ▸ s.per.dma.remaining.isLt.le
    exact Memory.fetch_writeWords _ hfits (getElem?_wordsFrom s.mem _ hi)
  · exact Memory.fetch_writeWords_other _ fun i hi => hx i (hlen ▸ hi)

end Sys2Proof.Proofs
end
